-- ==== Sys2Proof/Config.lean ====
section
/-! DEFINITION. The three model arguments the spec leaves to the implementation (spec/00_scope.md rule R6,
spec/92_eei_decisions.md D5, D6, D9), with the spec's defaults. The model has no free value: the spec leaves no result
of any operation unstated. -/

namespace Sys2Proof.Config

/-- R42, D5: what control code 11 does: end in `ReservedOpcode`, or behave exactly as code 01. -/
inductive ReservedOpPolicy where
  | fault
  | not
deriving DecidableEq, Repr

/-- R70, D6: what `decimalToBinary` does outside 0..15: end in `RangeError`, or reduce its argument modulo 16. -/
inductive CodecRangePolicy where
  | fault
  | mask
deriving DecidableEq, Repr

/-- R48, D9: what an unrecognised flag character does: select NOT, or end in `InvalidFlag`. -/
inductive FlagPolicy where
  | legacyNot
  | reject
deriving DecidableEq, Repr

/-- R6: the model arguments of one block. -/
structure Policies where
  reservedOp : ReservedOpPolicy
  codecRange : CodecRangePolicy
  flag : FlagPolicy
deriving DecidableEq, Repr

/-- R6: the spec's defaults. -/
def defaults : Policies := ⟨.fault, .fault, .legacyNot⟩

end Sys2Proof.Config
end

