-- ==== Sys2Proof/Word.lean ====
section
/-! DEFINITION. The data types of the block: Bit, Register, and the texts that cross the command-line boundary
(spec/10_state.md rules R10 and R12; spec/41_codec.md rule R78). -/

namespace Sys2Proof

/-- R10: "a value constrained to {0,1}". There is no third value. -/
abbrev Bit := Fin 2

/-- R12: an ordered sequence of exactly four Bits. The field `b<i>` is the Bit at source index `i`: index 0 is the most
significant bit (weight 8), index 3 the least significant (weight 1). A literal `1010` of the spec is `⟨1, 0, 1, 0⟩`.
Every element is a Bit, so no element ever needs normalising again (R12, decision D23). -/
structure Register where
  b0 : Bit
  b1 : Bit
  b2 : Bit
  b3 : Bit
deriving DecidableEq, Repr

/-- R7, R12: `r[i]`, the Bit at source index `i`. -/
def Register.bit (r : Register) (i : Fin 4) : Bit :=
  if i = 0 then r.b0 else if i = 1 then r.b1 else if i = 2 then r.b2 else r.b3

/-- `0000`, the value every register is created with (R16). -/
def Register.zero : Register := ⟨0, 0, 0, 0⟩

/-- A text at the command-line boundary: abstract characters in order (R78, decision D21: no rule depends on their
codes, and the model compares characters only for equality). -/
abbrev Text := List Char

end Sys2Proof
end

