-- ==== Sys2Proof/Machine/Gates.lean ====
section
/-! DEFINITION. Normalisation and the four gate primitives, total over all integers (spec/10_state.md rule R11,
spec/40_gates.md rules R60 to R64). Every unit of the block is a composition of these. -/

namespace Sys2Proof.Machine

/-- R11: the least significant bit of any integer, `v mod 2` with the Euclidean remainder (D8 for negative `v`). -/
def normBit (v : Int) : Bit := if v % 2 = 0 then 0 else 1

/-- A Bit on a wire, as the integer a gate takes (R60: "Bit-typed inputs (any integer value ...)"). -/
def bitInt (b : Bit) : Int := (b.val : Int)

/-- R61: "1 iff both inputs normalize to 1". -/
def gateAnd (a b : Int) : Bit := if normBit a = 1 ∧ normBit b = 1 then 1 else 0

/-- R62: "1 iff at least one input normalizes to 1". -/
def gateOr (a b : Int) : Bit := if normBit a = 1 ∨ normBit b = 1 then 1 else 0

/-- R63: "1 iff normalized inputs differ". -/
def gateXor (a b : Int) : Bit := if normBit a ≠ normBit b then 1 else 0

/-- R64: "1 iff input normalizes to 0". -/
def gateNot (a : Int) : Bit := if normBit a = 0 then 1 else 0

end Sys2Proof.Machine
end

