-- ==== Sys2Proof/Syntax.lean ====
section
/-! DEFINITION. The operations of the block as syntax: the Opcode enumeration and the instruction with its operands
(spec/30_encoding.md rules R40, R41; spec/opcode_table.json). -/

namespace Sys2Proof

/-- R40: "an enumerated control code, one of {ADD, AND, NOT}". -/
inductive Opcode where
  | add
  | not
  | and
deriving DecidableEq, Repr

/-- R40, R45: one operation with its operands, one constructor per row of the opcode table. Operands are Register values,
not register names; NOT has one operand, and whatever stood in its `b` field is no part of it (R45). -/
inductive Instr where
  | add (a b : Register)
  | not (a : Register)
  | and (a b : Register)
deriving DecidableEq, Repr

/-- The operation an instruction selects. -/
def Instr.opcode : Instr → Opcode
  | .add _ _ => .add
  | .not _ => .not
  | .and _ _ => .and

end Sys2Proof
end

