-- ==== Sys2Proof/Machine/State.lean ====
section
/-! DEFINITION. The state of the block as plain data, its faults and refusals, what a host may present to it, and the
state after reset (spec/10_state.md rules R15, R16, R20, R25, R26; spec/60_exceptions.md rule R130). -/

namespace Sys2Proof.Machine

/-- R130: the value `ReservedOpcode` records is "the field or the word": the field where the host drives the ports (R110),
the word where it gives an operation word (R55). -/
inductive ReservedInfo where
  | field (op : BitVec 2)
  | word (w : BitVec 10)
deriving DecidableEq, Repr

/-- R130: the value `InvalidHexLiteral` records is "the character or the literal": the character where `hexCharToValue`
raises it (R73), the literal where operand parsing does (log entry 9). -/
inductive HexInfo where
  | character (c : Char)
  | literal (t : Text)
deriving DecidableEq, Repr

/-- R130: the six named faults of the block. A fault is the whole outcome of its invocation (R131): no output, no line,
no saved state, no handler. Ending so is what the spec describes, so each is faithful where it is raised; the notes below
say where a policy or a decision of the spec makes the choice, and on which side it errs. -/
inductive Fault where
  /-- R133: an integer outside 0..15. Raised by `hexDigit`, and by `decimalToBinary` under the policy `fault`. No step
  raises it. Safe (D6 errs toward unprovable). -/
  | rangeError (n : Int)
  /-- R134: raised by `hexCharToValue` and by operand parsing. Safe (D7 errs toward unprovable). -/
  | invalidHexLiteral (info : HexInfo)
  /-- R135: raised by command-line parsing when operands are missing. `op` is `none` where not even a flag was given; the
  count is the number of operands. Safe; what it records is log entry 8. -/
  | missingArgument (op : Option Opcode) (count : Nat)
  /-- R136: raised by command-line parsing for a flag not of the form `-c`, and under `FlagPolicy.reject` for an
  unrecognised character. Safe. -/
  | invalidFlag (flag : Text)
  /-- R132: control code 11 under `ReservedOpPolicy.fault`, at the ports or in an operation word. Safe (D5). -/
  | reservedOpcode (info : ReservedInfo)
  /-- R139: raised by command-line parsing when operands are left over; the count is the number of operands. Safe
  (D26 errs toward unprovable). -/
  | extraArgument (op : Opcode) (count : Nat)
deriving DecidableEq, Repr

/-- The stops that are no outcome of an invocation. -/
inductive Refusal where
  /-- An instruction that has no meaning in this model, rejected by its mnemonic. No arm of `exec` uses it. Safe. -/
  | notModelled (mnemonic : String)
  /-- Raised by `step` when the host presents nothing, so that there is no invocation to perform (log entry 4). Safe. -/
  | noInvocation
deriving DecidableEq, Repr

/-- R9 item 8: the three forms in which a host presents one invocation. -/
inductive Request where
  /-- R20: the input ports `op`, `a`, `b`. -/
  | ports (op : BitVec 2) (a b : Register)
  /-- R43: one 10-bit operation word. -/
  | word (w : BitVec 10)
  /-- R47: the arguments of a command line, those after the program name. -/
  | command (args : List Text)
deriving DecidableEq, Repr

/-- R20: the outputs of the block: the result `y`, its hex digit `h`, the negative indicator `n`, the magnitude `m`. -/
structure Outputs where
  y : Register
  h : Char
  n : Bit
  m : Register
deriving DecidableEq, Repr

/-- All the block has, as it stands after one invocation (R15, R20, R25), with what the host presents to it and the model
arguments it was built with. There is no program counter, flag, control register, memory or hidden state (R21 to R24,
R30). -/
structure State where
  /-- R15: first operand register. -/
  A : Register
  /-- R15: second operand register. -/
  B : Register
  /-- R15: result register. -/
  R : Register
  /-- R15: scratch register, the magnitude of a negative ADD result. -/
  S : Register
  /-- R20, R25: the outputs of the invocation that ended here. None before one has ended (D19: no output has a "before"). -/
  outputs : Option Outputs
  /-- R52, R116: the line printed for it, where it was presented as a command line. -/
  line : Option Text
  /-- R9, R20: what the host presents at the inputs (the model's field, log entry 1: `step` takes no other argument). -/
  request : Option Request
  /-- R6: the model arguments (the model's field, log entry 2). -/
  policies : Config.Policies
deriving DecidableEq, Repr

/-- R26, R151: the four registers at `0000`. Nothing has been presented, no invocation has ended, and the model arguments
have the spec's defaults (R6). -/
def State.reset : State where
  A := Register.zero
  B := Register.zero
  R := Register.zero
  S := Register.zero
  outputs := none
  line := none
  request := none
  policies := Config.defaults

end Sys2Proof.Machine
end

