-- ==== Sys2Proof/Machine/Operands.lean ====
section
/-! DEFINITION. The readings of a Register as a number and the register codec, the form in which every operand comes in and
every result goes out (spec/10_state.md rules R13, R14; spec/41_codec.md rules R70 to R77). -/

namespace Sys2Proof.Machine

/-- R12, D23: a Register built from four wider integers (indices 0, 1, 2, 3), each normalised when the Register is
built. -/
def registerOfInts (v0 v1 v2 v3 : Int) : Register := ⟨normBit v0, normBit v1, normBit v2, normBit v3⟩

/-- R13: the unsigned value, in 0..15. -/
def val (r : Register) : Nat := 8 * r.b0.val + 4 * r.b1.val + 2 * r.b2.val + r.b3.val

/-- R14: the two's-complement value, in -8..7. -/
def sval (r : Register) : Int := if r.b0 = 0 then (val r : Int) else (val r : Int) - 16

/-- R70: the four-bit expansion of an integer that is in 0..15, most significant bit first. -/
def expand (n : Int) : Register := registerOfInts (n / 8) (n / 4) (n / 2) n

/-- R70: integer to Register. Outside 0..15 it ends in `RangeError`, or takes `n mod 16` under the policy `mask` (D6). -/
def decimalToBinary (p : Config.CodecRangePolicy) (n : Int) : Except Fault Register :=
  if 0 ≤ n ∧ n ≤ 15 then .ok (expand n)
  else
    match p with
    | .fault => .error (.rangeError n)
    | .mask => .ok (expand (n % 16))

/-- R71: Register to integer, always unsigned; the same function as `val` (R13). -/
def binaryToDecimal (r : Register) : Nat := val r

/-- R72: the hex alphabet, uppercase only, in order of value. -/
def hexAlpha : List Char :=
  ['0', '1', '2', '3', '4', '5', '6', '7', '8', '9', 'A', 'B', 'C', 'D', 'E', 'F']

/-- R72: integer to hex character; `RangeError` outside 0..15 under every policy (the source's own rule). -/
def hexDigit (n : Int) : Except Fault Char :=
  if h : 0 ≤ n ∧ n ≤ 15 then .ok (hexAlpha.get ⟨n.toNat, by simp only [hexAlpha, List.length]; omega⟩)
  else .error (.rangeError n)

/-- R73: hex character to integer: its position in the alphabet. A character that does not occur there is
`InvalidHexLiteral` (D7). -/
def hexCharToValue (c : Char) : Except Fault Nat :=
  match hexAlpha.findIdx? (fun d => d == c) with
  | some i => .ok i
  | none => .error (.invalidHexLiteral (.character c))

/-- R13: an unsigned value is below 16. -/
theorem val_lt (r : Register) : val r < 16 := by
  have h0 := r.b0.isLt
  have h1 := r.b1.isLt
  have h2 := r.b2.isLt
  have h3 := r.b3.isLt
  unfold val
  omega

/-- R76: the hex character of a Register, total. It is `hexDigit (binaryToDecimal r)` without the fault that cannot occur. -/
def regToHex (r : Register) : Char := hexAlpha.get ⟨binaryToDecimal r, val_lt r⟩

end Sys2Proof.Machine
end

