-- ==== Sys2Proof/Decode.lean ====
section
/-! DEFINITION. The control field, the 10-bit operation word, the decoder of both binary forms and the encoder
(spec/30_encoding.md rules R41 to R45, R55). Decoding is total: every word is an instruction or the reserved verdict. -/

namespace Sys2Proof

open Machine

/-- R43: bits 9:8 of an operation word. -/
def opField (w : BitVec 10) : BitVec 2 := w.extractLsb' 8 2

/-- R43: bits 7:4 of an operation word. -/
def aField (w : BitVec 10) : BitVec 4 := w.extractLsb' 4 4

/-- R43: bits 3:0 of an operation word. -/
def bField (w : BitVec 10) : BitVec 4 := w.extractLsb' 0 4

/-- Bit `k` of a field (bit 0 the least significant) as a Bit. -/
def fieldBit (f : BitVec 4) (k : Nat) : Bit := if f.getLsbD k then 1 else 0

/-- R44: the Register of a 4-bit field: the field's most significant bit stands at source index 0. -/
def regOfField (f : BitVec 4) : Register := ⟨fieldBit f 3, fieldBit f 2, fieldBit f 1, fieldBit f 0⟩

/-- R44: the field of a Register, the other way round. -/
def fieldOfReg (r : Register) : BitVec 4 := BitVec.ofNat 4 (val r)

/-- R41: the operation of a control field. Code 11 has none. -/
def decodeControl (op : BitVec 2) : Option Opcode :=
  if op = 0b00#2 then some .add
  else if op = 0b01#2 then some .not
  else if op = 0b10#2 then some .and
  else none

/-- R41: the control code of an operation: ADD=00, NOT=01, AND=10. -/
def Opcode.code : Opcode → BitVec 2
  | .add => 0b00#2
  | .not => 0b01#2
  | .and => 0b10#2

/-- R55, R110: the instruction that a control field selects on two operands. NOT takes the first and ignores the second
(R45, D11). Code 11 ends in `ReservedOpcode`, or is NOT, as the policy says (R42). -/
def select (p : Config.Policies) (info : ReservedInfo) (op : BitVec 2) (a b : Register) : Except Fault Instr :=
  match decodeControl op with
  | some .add => .ok (.add a b)
  | some .not => .ok (.not a)
  | some .and => .ok (.and a b)
  | none =>
    match p.reservedOp with
    | .fault => .error (.reservedOpcode info)
    | .not => .ok (.not a)

/-- R20: the instruction that the input ports present. -/
def decodePorts (p : Config.Policies) (op : BitVec 2) (a b : Register) : Except Fault Instr :=
  select p (.field op) op a b

/-- R55: the instruction of an operation word. -/
def decodeWord (p : Config.Policies) (w : BitVec 10) : Except Fault Instr :=
  select p (.word w) (opField w) (regOfField (aField w)) (regOfField (bField w))

/-- R43: the word `op ++ a ++ b`. -/
def packWord (op : BitVec 2) (a b : Register) : BitVec 10 := op ++ fieldOfReg a ++ fieldOfReg b

/-- R43, R45: the operation word of an instruction; the word of a NOT is the canonical one, with `b = 0000`. -/
def encode : Instr → BitVec 10
  | .add a b => packWord Opcode.add.code a b
  | .not a => packWord Opcode.not.code a Register.zero
  | .and a b => packWord Opcode.and.code a b

/-- The decoder on the opcode table's numbering: bit 0 is the least significant bit of the word (R7, R43). The spec's word
has 10 bits, `0x000` to `0x3FF`, so a number from 1024 up is no operation word (log entry 5). -/
def decodeTableWord (_nbits w : Nat) : Option Instr :=
  if w < 1024 then (decodeWord Config.defaults (BitVec.ofNat 10 w)).toOption else none

end Sys2Proof
end

