-- ==== Sys2Proof/Machine/Adder.lean ====
section
/-! DEFINITION. The ripple-carry adder as a composition of gates (spec/42_adder.md rules R80 to R86). R85: the gate
composition is normative, so `add` is these cells and this carry chain; that it adds modulo 16 is a claim about them. -/

namespace Sys2Proof.Machine

/-- R80: the wires of one full-adder cell. -/
structure Cell where
  p : Bit
  g : Bit
  s : Bit
  t : Bit
  cout : Bit
deriving DecidableEq, Repr

/-- R80: the full-adder cell, two half-adders and an OR. -/
def fullAdder (a b cin : Bit) : Cell :=
  let p := gateXor (bitInt a) (bitInt b)
  let g := gateAnd (bitInt a) (bitInt b)
  let s := gateXor (bitInt p) (bitInt cin)
  let t := gateAnd (bitInt cin) (bitInt p)
  ⟨p, g, s, t, gateOr (bitInt t) (bitInt g)⟩

/-- R86: the four cells, named by source index; `c3` is the least significant position. -/
structure AdderCells where
  c3 : Cell
  c2 : Cell
  c1 : Cell
  c0 : Cell
deriving DecidableEq, Repr

/-- R81, R86: the carry chain: the carry into index 3 is 0, and each carry out feeds the next more significant cell. -/
def adderCells (a b : Register) : AdderCells :=
  let c3 := fullAdder a.b3 b.b3 0
  let c2 := fullAdder a.b2 b.b2 c3.cout
  let c1 := fullAdder a.b1 b.b1 c2.cout
  let c0 := fullAdder a.b0 b.b0 c1.cout
  ⟨c3, c2, c1, c0⟩

/-- R82, R83: the sum bits of the four cells. The carry out of index 0 feeds nothing. -/
def add (a b : Register) : Register :=
  let w := adderCells a b
  ⟨w.c0.s, w.c1.s, w.c2.s, w.c3.s⟩

/-- R83, R84: the discarded carry `cout_0`. No operation of the machine reads it; claims about R83 and R84 name it. -/
def droppedCarry (a b : Register) : Bit := (adderCells a b).c0.cout

/-- R82: the loop of the adder rule as it is written there, over the positions still to do: it carries `cin` along and
gives the sum bits with the most significant first. -/
def addLoop (a b : Register) : List (Fin 4) → Bit → List Bit → List Bit
  | [], _, s => s
  | i :: is, cin, s =>
    let p := gateXor (bitInt (a.bit i)) (bitInt (b.bit i))
    let g := gateAnd (bitInt (a.bit i)) (bitInt (b.bit i))
    let si := gateXor (bitInt p) (bitInt cin)
    let t := gateAnd (bitInt cin) (bitInt p)
    addLoop a b is (gateOr (bitInt t) (bitInt g)) (si :: s)

end Sys2Proof.Machine
end

