-- ==== Sys2Proof/Machine/Flags.lean ====
section
/-! DEFINITION. The block has no flag register (spec/10_state.md rule R22). What it computes from a result beside the result
itself: the sign wire of an ADD, the decimal annotation, its text and the output line (spec/46_alu_operations.md rules R114,
R115; spec/30_encoding.md rules R52, R53). -/

namespace Sys2Proof.Machine

/-- R114: the sign bit of a result: the wire at index 0, and nothing else. -/
def signBit (r : Register) : Bit := r.b0

/-- R115: the decimal annotation: signed for ADD (by the magnitude where `n` is set), unsigned for AND, none for NOT. -/
def annotation (op : Opcode) (o : Outputs) : Option Int :=
  match op with
  | .add => if o.n = 1 then some (-(val o.m : Int)) else some (val o.y : Int)
  | .and => some (val o.y : Int)
  | .not => none

/-- R53: the decimal digits of a number with no leading zero, the least significant last; the first argument bounds the
number of digits. -/
def digits : Nat → Nat → Text
  | 0, _ => []
  | fuel + 1, n => (if n < 10 then [] else digits fuel (n / 10)) ++ [hexAlpha.getD (n % 10) '0']

/-- R53, D22: the shortest decimal numeral of an integer, with `-` directly before it when the integer is negative. -/
def numeral (d : Int) : Text :=
  if d < 0 then '-' :: digits (d.natAbs + 1) d.natAbs else digits (d.natAbs + 1) d.natAbs

/-- R52: `-> 0x<H> = <D>` and a newline, or `-> 0x<H>` and a newline where there is no annotation. -/
def outputLine (op : Opcode) (o : Outputs) : Text :=
  ['-', '>', ' ', '0', 'x', o.h] ++
    (match annotation op o with
      | some d => [' ', '=', ' '] ++ numeral d
      | none => []) ++ ['\n']

end Sys2Proof.Machine
end

