-- ==== Sys2Proof/Machine/CommandLine.lean ====
section
/-! DEFINITION. The command-line form, the block's assembler syntax: parsing with its faults in their order, and the
instruction a parsed line stands for (spec/30_encoding.md rules R47 to R51; spec/60_exceptions.md rules R134 to R139;
spec/46_alu_operations.md rule R116). -/

namespace Sys2Proof.Machine

/-- R116: what `parse` hands on: the operation with the hex digits of its operands. -/
inductive ParsedLine where
  | add (h1 h2 : Char)
  | not (h : Char)
  | and (h1 h2 : Char)
deriving DecidableEq, Repr

/-- R48: "'a' → ADD, 'd' → AND, anything else → NOT". Total; never the reserved code. -/
def decodeFlag (c : Char) : Opcode := if c = 'a' then .add else if c = 'd' then .and else .not

/-- R48, R49, D10: the operation that a flag character and the number of operands select: `-d` with one operand is NOT. -/
def selectOpcode (c : Char) (count : Nat) : Opcode :=
  if c = 'd' ∧ count = 1 then .not else decodeFlag c

/-- R40: how many operands an operation takes. -/
def arity : Opcode → Nat
  | .add => 2
  | .not => 1
  | .and => 2

/-- R50: the hex digit of an operand that is exactly `0`, `x`, hex digit; anything else is `InvalidHexLiteral`. -/
def parseLiteral (t : Text) : Except Fault Char :=
  match t with
  | [z, x, h] =>
    if z = '0' ∧ x = 'x' ∧ h ∈ hexAlpha then .ok h else .error (.invalidHexLiteral (.literal t))
  | _ => .error (.invalidHexLiteral (.literal t))

/-- R136: the flag character of an argument that is exactly `-` and one character, where the policy accepts it. -/
def parseFlag (p : Config.FlagPolicy) (flag : Text) : Except Fault Char :=
  match flag with
  | [dash, c] =>
    if dash = '-' ∧ (p = .legacyNot ∨ c = 'a' ∨ c = 'd') then .ok c else .error (.invalidFlag flag)
  | _ => .error (.invalidFlag flag)

/-- R137 items 3 and 4: the operand count against the operation, then the first operand, then the second. -/
def parseOperands (op : Opcode) (operands : List Text) : Except Fault ParsedLine :=
  if operands.length < arity op then .error (.missingArgument (some op) operands.length)
  else
    match op, operands with
    | .not, [t] => do return .not (← parseLiteral t)
    | .add, [t1, t2] => do return .add (← parseLiteral t1) (← parseLiteral t2)
    | .and, [t1, t2] => do return .and (← parseLiteral t1) (← parseLiteral t2)
    | _, _ => .error (.extraArgument op operands.length)

/-- R47, R51, R137: a command line (the arguments after the program name), with exactly one fault where it is refused. -/
def parse (p : Config.FlagPolicy) (args : List Text) : Except Fault ParsedLine :=
  match args with
  | [] => .error (.missingArgument none 0)
  | flag :: operands => do
    let c ← parseFlag p flag
    parseOperands (selectOpcode c operands.length) operands

/-- R116: hex digit to operand Register, `hexCharToValue` and then `decimalToBinary`. -/
def operandOfDigit (p : Config.CodecRangePolicy) (h : Char) : Except Fault Register := do
  decimalToBinary p ((← hexCharToValue h) : Nat)

/-- R49, R116: the instruction that a command line denotes, or the fault that refuses it. -/
def decodeCommand (p : Config.Policies) (args : List Text) : Except Fault Instr := do
  match ← parse p.flag args with
  | .add h1 h2 => return .add (← operandOfDigit p.codecRange h1) (← operandOfDigit p.codecRange h2)
  | .not h => return .not (← operandOfDigit p.codecRange h)
  | .and h1 h2 => return .and (← operandOfDigit p.codecRange h1) (← operandOfDigit p.codecRange h2)

end Sys2Proof.Machine
end

