-- ==== Sys2Proof/Machine/Units.lean ====
section
/-! DEFINITION. The bitwise AND unit, the bitwise NOT unit and the two's-complement negator (spec/43_and_unit.md rule R90,
spec/44_not_unit.md rule R95, spec/45_negator.md rule R100), and the hardwired constant ONE (spec/10_state.md rule R15). -/

namespace Sys2Proof.Machine

/-- R90: the AND gate at each of the four positions, no carry between them. -/
def bitwiseAnd (a b : Register) : Register :=
  ⟨gateAnd (bitInt a.b0) (bitInt b.b0), gateAnd (bitInt a.b1) (bitInt b.b1),
   gateAnd (bitInt a.b2) (bitInt b.b2), gateAnd (bitInt a.b3) (bitInt b.b3)⟩

/-- R95: the NOT gate at each of the four positions. -/
def bitwiseNot (a : Register) : Register :=
  ⟨gateNot (bitInt a.b0), gateNot (bitInt a.b1), gateNot (bitInt a.b2), gateNot (bitInt a.b3)⟩

/-- R15, R16: "the register representing decimal 1 (0001)", hardwired: nothing writes it. -/
def one : Register := ⟨0, 0, 0, 1⟩

/-- R100: complement, then add ONE through the same adder; the complement is a wire (D25: it is the first operand). -/
def negate (r : Register) : Register := add (bitwiseNot r) one

end Sys2Proof.Machine
end

