-- ==== Sys2Proof/Machine/Ops.lean ====
section
/-! DEFINITION. The named operations over the state: the life of the registers within one invocation, driving the outputs,
raising a fault, presenting and fetching an invocation (spec/10_state.md rules R16, R17, R20, R25; spec/60_exceptions.md
rules R130, R131; spec/46_alu_operations.md rules R110, R116). -/

namespace Sys2Proof.Machine

/-- R16, R150: an invocation begins by putting `A`, `B`, `R`, `S` to `0000`; nothing of an earlier one survives (R25). -/
def State.beginInvocation (s : State) : State :=
  { s with A := Register.zero, B := Register.zero, R := Register.zero, S := Register.zero, outputs := none, line := none }

/-- R17: the first operand is loaded into `A`. -/
def State.loadA (s : State) (a : Register) : State := { s with A := a }

/-- R17: the second operand is loaded into `B`, for ADD and AND only. -/
def State.loadB (s : State) (b : Register) : State := { s with B := b }

/-- R17: the selected unit writes the result register. -/
def State.writeR (s : State) (r : Register) : State := { s with R := r }

/-- R17, R102: the negator writes the scratch register. -/
def State.writeS (s : State) (r : Register) : State := { s with S := r }

/-- R111, R114: where the sign bit of `R` is set, `S` gets the negation of a copy of `R`; `R` itself is unchanged (R18). -/
def State.negateIfNegative (s : State) : State := if signBit s.R = 1 then s.writeS (negate s.R) else s

/-- R110: the last line of an invocation: `y` is `R`, `h` its hex digit, `m` is `S`, and `n` is what the operation says. -/
def State.driveOutputs (s : State) (n : Bit) : State :=
  { s with outputs := some { y := s.R, h := regToHex s.R, n := n, m := s.S } }

/-- R131, R141: raising a fault. The fault with its recorded value is the invocation's whole outcome: no register is saved,
no mode or mask changes, control goes nowhere inside the block, and the next invocation is unaffected. There is no return
from it (R142). -/
def raise (f : Fault) : Host.Outcome State Fault Refusal := .fault f

/-- R130: the spec's ordinals. They have no meaning in the hardware (D13). -/
def Fault.ordinal : Fault → Nat
  | .rangeError _ => 1
  | .invalidHexLiteral _ => 2
  | .missingArgument _ _ => 3
  | .invalidFlag _ => 4
  | .reservedOpcode _ => 5
  | .extraArgument _ _ => 6

/-- R20, R153: the host presents an invocation at the inputs. -/
def State.present (s : State) (q : Request) : State := { s with request := some q }

/-- R6: the block with other model arguments. -/
def State.withPolicies (s : State) (p : Config.Policies) : State := { s with policies := p }

/-- R21, R55, R116: the instruction that a request stands for, or the fault that refuses it. Nothing is fetched from a
memory. -/
def fetch (p : Config.Policies) (q : Request) : Except Fault Instr :=
  match q with
  | .ports op a b => decodePorts p op a b
  | .word w => decodeWord p w
  | .command args => decodeCommand p args

/-- R52, R116: the driver prints the line of an invocation that has ended in a result. -/
def State.printLine (s : State) (op : Opcode) : State := { s with line := s.outputs.map (outputLine op) }

/-- R116: what happens to a result beside the outputs: it is printed where the invocation was presented as a command line. -/
def State.deliver (s : State) (q : Request) (op : Opcode) : State :=
  match q with
  | .command _ => s.printLine op
  | .ports _ _ _ => s
  | .word _ => s

end Sys2Proof.Machine
end

