-- ==== Sys2Proof/Machine/Arithmetic.lean ====
section
/-! DEFINITION. The meaning of ADD (spec/46_alu_operations.md rule R111). -/

namespace Sys2Proof.Machine

/-- R111: both operands are loaded, the adder writes `R`, the negator writes `S` where the sum's sign bit is set, and `n`
shows that bit. Overflow is not detected in either reading (R83). -/
def execAdd (a b : Register) (s : State) : Host.Outcome State Fault Refusal :=
  let loaded := (s.beginInvocation.loadA a).loadB b
  let summed := loaded.writeR (add loaded.A loaded.B)
  let signed := summed.negateIfNegative
  .next (signed.driveOutputs (signBit signed.R))

end Sys2Proof.Machine
end

