-- ==== Sys2Proof/Machine/Logic.lean ====
section
/-! DEFINITION. The meanings of AND and NOT (spec/46_alu_operations.md rules R112, R113). -/

namespace Sys2Proof.Machine

/-- R112: both operands are loaded, the AND unit writes `R`. The sign bit is not tested and the negator does not run, even
where it is set. -/
def execAnd (a b : Register) (s : State) : Host.Outcome State Fault Refusal :=
  let loaded := (s.beginInvocation.loadA a).loadB b
  .next ((loaded.writeR (bitwiseAnd loaded.A loaded.B)).driveOutputs 0)

/-- R113: the operand is loaded into `A`, the NOT unit writes `R`. `B` stays `0000` and is not read. -/
def execNot (a : Register) (s : State) : Host.Outcome State Fault Refusal :=
  let loaded := s.beginInvocation.loadA a
  .next ((loaded.writeR (bitwiseNot loaded.A)).driveOutputs 0)

end Sys2Proof.Machine
end

