-- ==== Sys2Proof/Machine/Step.lean ====
section
/-! DEFINITION. One step of the machine is one invocation of the block, from the presented inputs to its outcome
(spec/10_state.md rule R25; spec/46_alu_operations.md rules R110, R116). -/

namespace Sys2Proof.Machine

/-- R25: one invocation. The presented request is read as an instruction or refused with its fault; the instruction runs;
a result presented as a command line is printed. The inputs are level signals (R20): the step leaves them as they are. -/
def step (s : State) : Host.Outcome State Fault Refusal :=
  match s.request with
  | none => .refused .noInvocation
  | some q =>
    match fetch s.policies q with
    | .error f => raise f
    | .ok i =>
      match exec i s with
      | .next t => .next (t.deliver q i.opcode)
      | .fault f => .fault f
      | .refused r => .refused r

/-- The host presents the operation word `w`, so that the next step runs it. A number from 1024 up is no operation word,
and presents nothing (log entry 5). -/
def State.withFetchWord (s : State) (_nbits w : Nat) : State :=
  if w < 1024 then s.present (.word (BitVec.ofNat 10 w)) else { s with request := none }

end Sys2Proof.Machine
end

