-- ==== Sys2Proof/Machine/Invoke.lean ====
section
/-! DEFINITION. The block read as a function of its inputs alone, as the spec writes it: `invoke` (spec/46_alu_operations.md
rule R110), `run` (R116), and a host that performs several invocations one after another (spec/92_eei_decisions.md D16).
The machine of Step.lean does not use these; claims compare it with them. -/

namespace Sys2Proof.Machine

/-- R110, last line: the outputs for a result `r`, an indicator `n` and a scratch register `sc`. -/
def outputsOf (r : Register) (n : Bit) (sc : Register) : Outputs := ⟨r, regToHex r, n, sc⟩

/-- R110: `invoke : (op, a, b) -> Ok(y, h, n, m) | Fault(f)`, case by case on the control field. -/
def invoke (p : Config.ReservedOpPolicy) (op : BitVec 2) (a b : Register) : Except Fault Outputs :=
  if op = 0b00#2 then
    let r := add a b
    .ok (outputsOf r r.b0 (if r.b0 = 1 then negate r else Register.zero))
  else if op = 0b10#2 then .ok (outputsOf (bitwiseAnd a b) 0 Register.zero)
  else if op = 0b01#2 then .ok (outputsOf (bitwiseNot a) 0 Register.zero)
  else
    match p with
    | .fault => .error (.reservedOpcode (.field op))
    | .not => .ok (outputsOf (bitwiseNot a) 0 Register.zero)

/-- R116: from the arguments of a command line to the line printed. -/
def run (p : Config.Policies) (args : List Text) : Except Fault Text := do
  match ← parse p.flag args with
  | .add h1 h2 =>
    let a ← operandOfDigit p.codecRange h1
    let b ← operandOfDigit p.codecRange h2
    let o ← invoke p.reservedOp Opcode.add.code a b
    return outputLine .add o
  | .and h1 h2 =>
    let a ← operandOfDigit p.codecRange h1
    let b ← operandOfDigit p.codecRange h2
    let o ← invoke p.reservedOp Opcode.and.code a b
    return outputLine .and o
  | .not h =>
    let a ← operandOfDigit p.codecRange h
    let o ← invoke p.reservedOp Opcode.not.code a Register.zero
    return outputLine .not o

/-- R131: what is left after an outcome for the next invocation to begin in: the state the invocation ended in, and where
it faulted the state it began in. -/
def stateAfter (s : State) : Host.Outcome State Fault Refusal → State
  | .next t => t
  | .fault _ => s
  | .refused _ => s

/-- D16, R21: a host performs a list of invocations one after another on one block; the outcomes in order. -/
def perform : State → List Request → List (Host.Outcome State Fault Refusal)
  | _, [] => []
  | s, q :: qs =>
    let o := step (s.present q)
    o :: perform (stateAfter s o) qs

end Sys2Proof.Machine
end

