-- ==== Sys2Proof/Safety.lean ====
section
/-! DEFINITION. The terms in which claims speak of a coherent state of the block, written with the arithmetic readings of
the registers and not with the units that compute them (spec/10_state.md rules R15 to R18, R20; spec/46_alu_operations.md
rules R111 to R115). -/

namespace Sys2Proof.Machine

/-- R111 to R113 in arithmetic: `R`, `S` and `n` are what operation `op` leaves for the operands in `A` and `B`. -/
def ResultOf (op : Opcode) (s : State) (n : Bit) : Prop :=
  match op with
  | .add =>
    val s.R = (val s.A + val s.B) % 16 ∧ (n = 1 ↔ 8 ≤ val s.R) ∧
      val s.S = if 8 ≤ val s.R then 16 - val s.R else 0
  | .and => val s.R = val s.A &&& val s.B ∧ n = 0 ∧ val s.S = 0
  | .not => val s.R = 15 - val s.A ∧ val s.B = 0 ∧ n = 0 ∧ val s.S = 0

/-- A state that one invocation can leave. Before any has ended the registers have their reset values and nothing has been
printed. After one has ended, the outputs show the registers, the registers are one operation's result on the operands,
and a printed line is that operation's line. -/
def State.Coherent (s : State) : Prop :=
  match s.outputs with
  | none => s.A = Register.zero ∧ s.B = Register.zero ∧ s.R = Register.zero ∧ s.S = Register.zero ∧ s.line = none
  | some o =>
    o.y = s.R ∧ hexDigit (val s.R) = .ok o.h ∧ o.m = s.S ∧
      ∃ op, ResultOf op s o.n ∧ (s.line = none ∨ s.line = some (outputLine op o))

/-- The value of a text of decimal digits, read from the left; none where a character is no decimal digit. -/
def digitsValue : Nat → Text → Option Nat
  | acc, [] => some acc
  | acc, c :: cs =>
    match (hexAlpha.take 10).findIdx? (fun d => d == c) with
    | some k => digitsValue (10 * acc + k) cs
    | none => none

/-- R53: the integer a decimal numeral spells; none where it has no digit, a leading zero before another digit, a `+`, or a
`-` before zero. -/
def readNumeral (t : Text) : Option Int :=
  match t with
  | [] => none
  | '-' :: ds =>
    match ds with
    | [] => none
    | d :: _ => if d = '0' then none else (digitsValue 0 ds).map (fun n => -(n : Int))
  | d :: ds => if d = '0' ∧ ds ≠ [] then none else (digitsValue 0 (d :: ds)).map (fun n => (n : Int))

end Sys2Proof.Machine
end

