-- ==== Sys2Proof/WellFormed.lean ====
section
/-! DEFINITION. Which spellings of an operation are the admitted ones (spec/30_encoding.md rules R43, R45, R49, R50). A term
of Instr needs no check of its own: its operands are Registers, and every one of the 16 Registers is a legal operand
(R12, R153). What a host writes down does need one: an operation word, an operand literal, a command line. -/

namespace Sys2Proof

open Machine

/-- R42, R45: a word that some instruction's encoding is: its control field is not the reserved code, and the ignored `b`
field of a NOT is `0000`. -/
def canonicalWord (w : BitVec 10) : Bool :=
  opField w != 0b11#2 && (opField w != 0b01#2 || bField w == 0#4)

/-- R50: exactly three characters: `0`, lowercase `x`, one of the sixteen uppercase hex digits. -/
def admittedLiteral (t : Text) : Bool :=
  match t with
  | [z, x, h] => z == '0' && x == 'x' && hexAlpha.contains h
  | _ => false

/-- R49: the admitted command lines: `-a` or `-d` with two literals, `-d` with one, and another flag character with one
where the policy is the legacy one. -/
def admittedCommand (p : Config.FlagPolicy) (args : List Text) : Bool :=
  match args with
  | [[dash, c], t1, t2] => dash == '-' && (c == 'a' || c == 'd') && admittedLiteral t1 && admittedLiteral t2
  | [[dash, c], t] => dash == '-' && (c == 'd' || (c != 'a' && p == .legacyNot)) && admittedLiteral t
  | _ => false

end Sys2Proof
end

