-- ==== Sys2Proof/Certificates/Slice0/Obligations.lean ====
section
/-! DEFINITION. The statements for the provers. Every statement about a step or an operation holds for every value of the
three model arguments (spec/00_scope.md rule R6), which stand in the state, unless it names a policy. -/

open Sys2Proof Sys2Proof.Machine

/-! Gates and data types -/

/-- R11: `norm(v) = v mod 2`, for every integer, the negative ones too (D8); on a Bit it is the identity. -/
def Obligations.NormIsLeastSignificantBit : Prop :=
  (∀ v : Int, bitInt (normBit v) = v % 2) ∧ ∀ b : Bit, normBit (bitInt b) = b

/-- R61 to R64: for all integer inputs each gate gives 1 and 0 exactly in the rows of its truth table that do, the rows
being those of the normalised inputs. -/
def Obligations.GatesMatchTruthTables : Prop :=
  ∀ a b : Int,
    (gateAnd a b = 1 ↔ normBit a = 1 ∧ normBit b = 1) ∧ (gateAnd a b = 0 ↔ normBit a = 0 ∨ normBit b = 0) ∧
    (gateOr a b = 1 ↔ normBit a = 1 ∨ normBit b = 1) ∧ (gateOr a b = 0 ↔ normBit a = 0 ∧ normBit b = 0) ∧
    (gateXor a b = 1 ↔ normBit a ≠ normBit b) ∧ (gateXor a b = 0 ↔ normBit a = normBit b) ∧
    (gateNot a = 1 ↔ normBit a = 0) ∧ (gateNot a = 0 ↔ normBit a = 1)

/-- R66: the laws that follow from the tables, for all integers. -/
def Obligations.GateAlgebra : Prop :=
  ∀ a b : Int,
    gateAnd a b = gateAnd b a ∧ gateOr a b = gateOr b a ∧ gateXor a b = gateXor b a ∧
    gateNot (bitInt (gateNot a)) = normBit a ∧
    bitInt (gateAnd a b) = bitInt (normBit a) * bitInt (normBit b) ∧
    bitInt (gateXor a b) = (bitInt (normBit a) + bitInt (normBit b)) % 2 ∧
    bitInt (gateOr a b) = bitInt (normBit a) + bitInt (normBit b) - bitInt (normBit a) * bitInt (normBit b) ∧
    bitInt (gateNot a) = 1 - bitInt (normBit a) ∧
    gateAnd (bitInt (normBit a)) (bitInt (normBit b)) = gateAnd a b ∧
    gateOr (bitInt (normBit a)) (bitInt (normBit b)) = gateOr a b ∧
    gateXor (bitInt (normBit a)) (bitInt (normBit b)) = gateXor a b ∧
    gateNot (bitInt (normBit a)) = gateNot a

/-- R13: the positional value of a Register, a bijection between Registers and 0..15, the same function as
`binaryToDecimal`, with the inverse `decimalToBinary`. -/
def Obligations.RegisterValueIsBijection : Prop :=
  (∀ r : Register,
    val r = 8 * (r.bit 0).val + 4 * (r.bit 1).val + 2 * (r.bit 2).val + (r.bit 3).val ∧ val r ≤ 15 ∧
    binaryToDecimal r = val r) ∧
  (∀ r r' : Register, val r = val r' → r = r') ∧
  ∀ (p : Config.CodecRangePolicy) (n : Nat), n ≤ 15 → ∃ r, decimalToBinary p n = .ok r ∧ val r = n

/-- R14: the signed value is in -8..7, is the unsigned one where the sign bit is 0 and 16 less where it is 1, and is the
sign extension of the four bits. -/
def Obligations.SignedValueIsSignExtension : Prop :=
  ∀ r : Register,
    sval r = (if r.bit 0 = 0 then (val r : Int) else (val r : Int) - 16) ∧ -8 ≤ sval r ∧ sval r ≤ 7 ∧
    sval r = (BitVec.ofNat 4 (val r)).toInt

/-! Codec -/

/-- R70: the four bits of `decimalToBinary` in 0..15 under either policy; outside, `RangeError` under `fault`, and the
expansion of `n mod 16` under `mask`. -/
def Obligations.DecimalToBinaryByPolicy : Prop :=
  ∀ n : Int,
    (0 ≤ n ∧ n ≤ 15 → ∀ p : Config.CodecRangePolicy, ∃ r, decimalToBinary p n = .ok r ∧
      bitInt r.b0 = n / 8 % 2 ∧ bitInt r.b1 = n / 4 % 2 ∧ bitInt r.b2 = n / 2 % 2 ∧ bitInt r.b3 = n % 2) ∧
    (¬(0 ≤ n ∧ n ≤ 15) → decimalToBinary .fault n = .error (.rangeError n)) ∧
    (¬(0 ≤ n ∧ n ≤ 15) → decimalToBinary .mask n = decimalToBinary .mask (n % 16))

/-- R74: integer to Register to integer, and the other way round. -/
def Obligations.DecimalRoundTrip : Prop :=
  ∀ p : Config.CodecRangePolicy,
    (∀ n : Nat, n ≤ 15 → (decimalToBinary p n).map binaryToDecimal = .ok n) ∧
    ∀ r : Register, decimalToBinary p (binaryToDecimal r) = .ok r

/-- R72: the character at position `n` of `0123456789ABCDEF`, and `RangeError` outside 0..15. -/
def Obligations.HexDigitOnlyInRange : Prop :=
  (∀ n : Int, 0 ≤ n ∧ n ≤ 15 → ∃ c, hexDigit n = .ok c ∧ "0123456789ABCDEF".toList[n.toNat]? = some c) ∧
  ∀ n : Int, ¬(0 ≤ n ∧ n ≤ 15) → hexDigit n = .error (.rangeError n)

/-- R73: the position of a character of `0123456789ABCDEF`, and `InvalidHexLiteral` for any other. -/
def Obligations.HexCharToValueInvertsAlphabet : Prop :=
  (∀ (c : Char) (i : Nat), hexCharToValue c = .ok i ↔ "0123456789ABCDEF".toList[i]? = some c) ∧
  ∀ c : Char, c ∉ "0123456789ABCDEF".toList → hexCharToValue c = .error (.invalidHexLiteral (.character c))

/-- R75: integer to character to integer, and the other way round on the alphabet. -/
def Obligations.HexRoundTrip : Prop :=
  (∀ n : Nat, n ≤ 15 → (hexDigit n).bind hexCharToValue = .ok n) ∧
  ∀ c ∈ hexAlpha, (hexCharToValue c).bind (fun n => hexDigit n) = .ok c

/-- R76: `regToHex` is the composition of the two codec functions, total on Registers: it never faults. -/
def Obligations.RegToHexNeverFaults : Prop :=
  ∀ r : Register, hexDigit (binaryToDecimal r) = .ok (regToHex r)

/-! Adder -/

/-- R80: the cell's wires and its arithmetic, in every row of its table. -/
def Obligations.FullAdderCellAddsThreeBits : Prop :=
  ∀ a b cin : Bit,
    (fullAdder a b cin).p = gateXor (bitInt a) (bitInt b) ∧
    (fullAdder a b cin).g = gateAnd (bitInt a) (bitInt b) ∧
    (fullAdder a b cin).s = gateXor (bitInt (fullAdder a b cin).p) (bitInt cin) ∧
    (fullAdder a b cin).t = gateAnd (bitInt cin) (bitInt (fullAdder a b cin).p) ∧
    (fullAdder a b cin).cout = gateOr (bitInt (fullAdder a b cin).t) (bitInt (fullAdder a b cin).g) ∧
    2 * (fullAdder a b cin).cout.val + (fullAdder a b cin).s.val = a.val + b.val + cin.val

/-- R82: the loop over positions 3, 2, 1, 0 that carries `cin` along gives the sum bits that the four wired cells of `add`
give; and the corner cases of the rule, the wraps and the undetected sign change among them. -/
def Obligations.AdderLoopAgreesWithCells : Prop :=
  (∀ a b : Register,
    addLoop a b [3, 2, 1, 0] 0 [] = [(add a b).bit 0, (add a b).bit 1, (add a b).bit 2, (add a b).bit 3]) ∧
  (∀ r : Register, add r ⟨0, 0, 0, 0⟩ = r ∧ add r r = ⟨r.bit 1, r.bit 2, r.bit 3, 0⟩) ∧
  add ⟨0, 0, 0, 0⟩ ⟨0, 0, 0, 0⟩ = ⟨0, 0, 0, 0⟩ ∧ add ⟨1, 1, 1, 1⟩ ⟨0, 0, 0, 1⟩ = ⟨0, 0, 0, 0⟩ ∧
  add ⟨1, 0, 0, 0⟩ ⟨1, 0, 0, 0⟩ = ⟨0, 0, 0, 0⟩ ∧ add ⟨0, 1, 0, 0⟩ ⟨0, 1, 0, 0⟩ = ⟨1, 0, 0, 0⟩ ∧
  add ⟨0, 1, 1, 1⟩ ⟨0, 0, 0, 1⟩ = ⟨1, 0, 0, 0⟩ ∧ add ⟨1, 1, 1, 1⟩ ⟨1, 1, 1, 1⟩ = ⟨1, 1, 1, 0⟩ ∧
  add ⟨1, 0, 0, 1⟩ ⟨0, 0, 0, 1⟩ = ⟨1, 0, 1, 0⟩

/-- R83: the dropped carry shows nowhere, and neither does an overflow in either reading: two ADDs with the same four sum
bits, whatever their operands, leave the same result, magnitude, outputs and line. -/
def Obligations.OverflowIsNotObservable : Prop :=
  ∀ (s : State) (a b a' b' : Register), add a b = add a' b' → ∃ t t' o,
    exec (.add a b) s = .next t ∧ exec (.add a' b') s = .next t' ∧
    t.outputs = some o ∧ t'.outputs = some o ∧ t.R = t'.R ∧ t.S = t'.S ∧ t.line = t'.line

/-- R84: the sum modulo 16, in both readings of the operands, and the carry that is dropped. -/
def Obligations.AddIsSumModulo16 : Prop :=
  ∀ a b : Register,
    val (add a b) = (val a + val b) % 16 ∧
    -8 ≤ sval (add a b) ∧ sval (add a b) ≤ 7 ∧ (sval (add a b) - (sval a + sval b)) % 16 = 0 ∧
    (droppedCarry a b).val = (val a + val b) / 16

/-- R87: commutative with every internal wire, `0000` neutral, associative, and the two complements. -/
def Obligations.AddLaws : Prop :=
  ∀ a b c : Register,
    add a b = add b a ∧ adderCells a b = adderCells b a ∧ add a Register.zero = a ∧
    add (add a b) c = add a (add b c) ∧ add a (negate a) = Register.zero ∧ add a (bitwiseNot a) = ⟨1, 1, 1, 1⟩

/-! Units -/

/-- R91: integer AND; commutative, associative, idempotent, and below both operands. -/
def Obligations.BitwiseAndIsIntegerAnd : Prop :=
  ∀ a b c : Register,
    val (bitwiseAnd a b) = val a &&& val b ∧ bitwiseAnd a b = bitwiseAnd b a ∧
    bitwiseAnd (bitwiseAnd a b) c = bitwiseAnd a (bitwiseAnd b c) ∧ bitwiseAnd a a = a ∧
    val (bitwiseAnd a b) ≤ min (val a) (val b)

/-- R90, R95: each position of a result depends on that position of the operands alone, through one gate; and the corner
cases of the two rules. -/
def Obligations.UnitLanesAreIndependent : Prop :=
  (∀ (a b : Register) (i : Fin 4),
    (bitwiseAnd a b).bit i = gateAnd (bitInt (a.bit i)) (bitInt (b.bit i)) ∧
    (bitwiseNot a).bit i = gateNot (bitInt (a.bit i))) ∧
  (∀ a : Register, bitwiseAnd a ⟨0, 0, 0, 0⟩ = ⟨0, 0, 0, 0⟩ ∧ bitwiseAnd a ⟨1, 1, 1, 1⟩ = a ∧ bitwiseAnd a a = a ∧
    bitwiseNot (bitwiseNot a) = a) ∧
  bitwiseAnd ⟨1, 0, 1, 0⟩ ⟨0, 1, 0, 1⟩ = ⟨0, 0, 0, 0⟩ ∧ bitwiseAnd ⟨1, 1, 0, 0⟩ ⟨1, 0, 1, 0⟩ = ⟨1, 0, 0, 0⟩ ∧
  bitwiseNot ⟨0, 0, 0, 0⟩ = ⟨1, 1, 1, 1⟩ ∧ bitwiseNot ⟨1, 1, 1, 1⟩ = ⟨0, 0, 0, 0⟩ ∧
  bitwiseNot ⟨0, 1, 0, 1⟩ = ⟨1, 0, 1, 0⟩

/-- R96: `15 - a`, and `-a - 1` in the signed reading. -/
def Obligations.BitwiseNotIsComplement : Prop :=
  ∀ a : Register, val (bitwiseNot a) = 15 - val a ∧ sval (bitwiseNot a) = -sval a - 1

/-- R101: the two's complement. The last clause, that negating twice gives the Register back, is a corner case of R100. -/
def Obligations.NegateIsTwosComplement : Prop :=
  ∀ r : Register,
    val (negate r) = (16 - val r) % 16 ∧
    sval (negate r) = (if r = ⟨1, 0, 0, 0⟩ then -8 else -sval r) ∧
    add r (negate r) = Register.zero ∧ negate (negate r) = r

/-! Encoding -/

/-- R41: ADD=00, NOT=01, AND=10, and no operation for 11. -/
def Obligations.ControlCodes : Prop :=
  Opcode.add.code = 0b00#2 ∧ Opcode.not.code = 0b01#2 ∧ Opcode.and.code = 0b10#2 ∧
  (∀ (op : BitVec 2) (o : Opcode), decodeControl op = some o ↔ op = o.code) ∧ decodeControl 0b11#2 = none

/-- R44: which bit of the word is which Bit of which operand, and that a field's number is the Register's value. -/
def Obligations.WordBitsBecomeRegisterBits : Prop :=
  ∀ w : BitVec 10,
    ((regOfField (aField w)).b0 = 1 ↔ w.getLsbD 7 = true) ∧ ((regOfField (aField w)).b1 = 1 ↔ w.getLsbD 6 = true) ∧
    ((regOfField (aField w)).b2 = 1 ↔ w.getLsbD 5 = true) ∧ ((regOfField (aField w)).b3 = 1 ↔ w.getLsbD 4 = true) ∧
    ((regOfField (bField w)).b0 = 1 ↔ w.getLsbD 3 = true) ∧ ((regOfField (bField w)).b1 = 1 ↔ w.getLsbD 2 = true) ∧
    ((regOfField (bField w)).b2 = 1 ↔ w.getLsbD 1 = true) ∧ ((regOfField (bField w)).b3 = 1 ↔ w.getLsbD 0 = true) ∧
    val (regOfField (aField w)) = (aField w).toNat ∧ val (regOfField (bField w)) = (bField w).toNat

/-- R43, R45, R55: decoding the word of any instruction, under any policy, gives that instruction back. -/
def Obligations.DecodeOfEncode : Prop :=
  ∀ (p : Config.Policies) (i : Instr), decodeWord p (encode i) = .ok i

/-- R43, R45, R55: every canonical word decodes, under any policy, to an instruction whose word it is; and the words of
instructions are the canonical ones and no others. -/
def Obligations.EncodeOfDecodeOnCanonicalWords : Prop :=
  (∀ (p : Config.Policies) (w : BitVec 10), canonicalWord w = true → ∃ i, decodeWord p w = .ok i ∧ encode i = w) ∧
  ∀ w : BitVec 10, (∃ i, encode i = w) → canonicalWord w = true

/-- R55: what each of the 1024 words decodes to, by its number: ADD below 0x100, NOT below 0x200, AND below 0x300, and
from there the reserved verdict of the policy. -/
def Obligations.EveryWordDecodes : Prop :=
  ∀ (p : Config.Policies) (w : BitVec 10), ∃ a b : Register,
    val a = w.toNat / 16 % 16 ∧ val b = w.toNat % 16 ∧
    decodeWord p w =
      if w.toNat < 0x100 then .ok (.add a b)
      else if w.toNat < 0x200 then .ok (.not a)
      else if w.toNat < 0x300 then .ok (.and a b)
      else if p.reservedOp = .fault then .error (.reservedOpcode (.word w))
      else .ok (.not a)

/-- R43, R55: words written out bit by bit from the pattern `ooaaaabbbb`, one or more of every row of the opcode table. -/
def Obligations.WrittenOutWordsDecode : Prop :=
  ∀ p : Config.Policies,
    decodeWord p 0b0010010001#10 = .ok (.add ⟨1, 0, 0, 1⟩ ⟨0, 0, 0, 1⟩) ∧
    decodeWord p 0b0000110100#10 = .ok (.add ⟨0, 0, 1, 1⟩ ⟨0, 1, 0, 0⟩) ∧
    decodeWord p 0b0101010000#10 = .ok (.not ⟨0, 1, 0, 1⟩) ∧
    decodeWord p 0b0101011001#10 = .ok (.not ⟨0, 1, 0, 1⟩) ∧
    decodeWord p 0b1011001010#10 = .ok (.and ⟨1, 1, 0, 0⟩ ⟨1, 0, 1, 0⟩)

/-! The operations -/

/-- R111: ADD answers a next state, from every state and on every pair of operands, with its result, magnitude and outputs;
nothing but registers, outputs and line changes. -/
def Obligations.AddCompletesWithSumAndMagnitude : Prop :=
  ∀ (s : State) (a b : Register), ∃ t o, exec (.add a b) s = .next t ∧
    t.A = a ∧ t.B = b ∧ val t.R = (val a + val b) % 16 ∧
    val t.S = (if 8 ≤ (val a + val b) % 16 then 16 - (val a + val b) % 16 else 0) ∧
    t.outputs = some o ∧ o.y = t.R ∧ hexDigit (val t.R) = .ok o.h ∧
    o.n = (if 8 ≤ (val a + val b) % 16 then 1 else 0) ∧ o.m = t.S ∧
    t.line = none ∧ t.request = s.request ∧ t.policies = s.policies

/-- R112: AND answers a next state, from every state and on every pair of operands, with its result and outputs; the
negator does not run, even where the result's top bit is set; nothing but registers, outputs and line changes. -/
def Obligations.AndCompletesWithBitwiseAnd : Prop :=
  ∀ (s : State) (a b : Register), ∃ t o, exec (.and a b) s = .next t ∧
    t.A = a ∧ t.B = b ∧ val t.R = val a &&& val b ∧ t.S = Register.zero ∧
    t.outputs = some o ∧ o.y = t.R ∧ hexDigit (val t.R) = .ok o.h ∧ o.n = 0 ∧ o.m = Register.zero ∧
    t.line = none ∧ t.request = s.request ∧ t.policies = s.policies

/-- R113: NOT answers a next state, from every state and on every operand, with its result and outputs; `B` and `S` hold
their reset value; nothing but registers, outputs and line changes. -/
def Obligations.NotCompletesWithComplement : Prop :=
  ∀ (s : State) (a : Register), ∃ t o, exec (.not a) s = .next t ∧
    t.A = a ∧ t.B = Register.zero ∧ val t.R = 15 - val a ∧ t.S = Register.zero ∧
    t.outputs = some o ∧ o.y = t.R ∧ hexDigit (val t.R) = .ok o.h ∧ o.n = 0 ∧ o.m = Register.zero ∧
    t.line = none ∧ t.request = s.request ∧ t.policies = s.policies

/-- R102: the negator runs for an ADD with its sign bit set and for nothing else, and works on a copy: operands and
result are what they were, the hex digit shows the result, the magnitude output shows `S`. -/
def Obligations.NegatorWorksOnACopy : Prop :=
  ∀ (i : Instr) (s : State), ∃ t o, exec i s = .next t ∧ t.outputs = some o ∧
    o.y = t.R ∧ o.h = regToHex t.R ∧ o.m = t.S ∧
    match i with
    | .add a b => t.A = a ∧ t.B = b ∧ t.R = add a b ∧
        (t.R.bit 0 = 1 → t.S = negate t.R) ∧ (t.R.bit 0 = 0 → t.S = Register.zero)
    | .and a b => t.A = a ∧ t.B = b ∧ t.R = bitwiseAnd a b ∧ t.S = Register.zero
    | .not a => t.A = a ∧ t.R = bitwiseNot a ∧ t.S = Register.zero

/-- R114: the sign bit is set exactly for results 8..15, which 128 of the 256 operand pairs of ADD give. -/
def Obligations.SignBitSetForHalfThePairs : Prop :=
  (∀ r : Register, signBit r = 1 ↔ 8 ≤ val r) ∧
  ((List.range 16).map (fun x => ((List.range 16).filter
    (fun y => signBit (add (expand x) (expand y)) == 1)).length)).sum = 128

/-- R115: the decimal annotation of each operation's outputs: for ADD the signed value of the result, for AND the unsigned
one, for NOT none. -/
def Obligations.AnnotationByOperation : Prop :=
  ∀ (s : State) (a b : Register),
    (∃ t o, exec (.add a b) s = .next t ∧ t.outputs = some o ∧ annotation .add o = some (sval o.y) ∧
      sval o.y = (if 8 ≤ (val a + val b) % 16 then -(16 - ((val a + val b) % 16 : Nat) : Int)
        else ((val a + val b) % 16 : Nat)) ∧
      -8 ≤ sval o.y ∧ sval o.y ≤ 7) ∧
    (∃ t o, exec (.and a b) s = .next t ∧ t.outputs = some o ∧
      annotation .and o = some ((val a &&& val b : Nat) : Int) ∧ val a &&& val b ≤ 15) ∧
    ∃ t o, exec (.not a) s = .next t ∧ t.outputs = some o ∧ annotation .not o = none

/-- R53: the numeral of any integer spells it, with no `+`, no leading zero, and `-` directly before the digits exactly where
the integer is negative. -/
def Obligations.NumeralSpellsTheInteger : Prop :=
  ∀ d : Int, readNumeral (numeral d) = some d

/-- R52: the line of an operation that an invocation has ended, character by character. -/
def Obligations.OutputLineShape : Prop :=
  ∀ (s : State) (i : Instr), ∃ t o, exec i s = .next t ∧ t.outputs = some o ∧
    hexDigit (val t.R) = .ok o.h ∧
    match i with
    | .add _ _ => outputLine .add o = "-> 0x".toList ++ [o.h] ++ " = ".toList ++ numeral (sval t.R) ++ "\n".toList
    | .and _ _ => outputLine .and o = "-> 0x".toList ++ [o.h] ++ " = ".toList ++ numeral (val t.R) ++ "\n".toList
    | .not _ => outputLine .not o = "-> 0x".toList ++ [o.h] ++ "\n".toList

/-! Command lines -/

/-- R48: the flag decoder, total and never the reserved code; and the policy on an unrecognised character. -/
def Obligations.FlagCharacterSelectsOperation : Prop :=
  ∀ c : Char,
    decodeFlag c = (if c = 'a' then .add else if c = 'd' then .and else .not) ∧ (decodeFlag c).code ≠ 0b11#2 ∧
    (∀ count, selectOpcode c count = if c = 'd' ∧ count = 1 then .not else decodeFlag c) ∧
    parseFlag .legacyNot ['-', c] = .ok c ∧
    parseFlag .reject ['-', c] = if c = 'a' ∨ c = 'd' then .ok c else .error (.invalidFlag ['-', c])

/-- R49: each admitted spelling, with every hex digit in each operand, denotes its operation and operands; and a command
line that is not one of them denotes none. -/
def Obligations.AdmittedSpellingsDenote : Prop :=
  ∀ p : Config.Policies,
    (∀ a b : Register,
      decodeCommand p [['-', 'a'], ['0', 'x', regToHex a], ['0', 'x', regToHex b]] = .ok (.add a b) ∧
      decodeCommand p [['-', 'd'], ['0', 'x', regToHex a], ['0', 'x', regToHex b]] = .ok (.and a b) ∧
      decodeCommand p [['-', 'd'], ['0', 'x', regToHex a]] = .ok (.not a) ∧
      ∀ c : Char, c ≠ 'a' ∧ c ≠ 'd' → p.flag = .legacyNot →
        decodeCommand p [['-', c], ['0', 'x', regToHex a]] = .ok (.not a)) ∧
    ∀ (args : List Text) (i : Instr), decodeCommand p args = .ok i → ∃ a b : Register,
      (args = [['-', 'a'], ['0', 'x', regToHex a], ['0', 'x', regToHex b]] ∧ i = .add a b) ∨
      (args = [['-', 'd'], ['0', 'x', regToHex a], ['0', 'x', regToHex b]] ∧ i = .and a b) ∨
      (args = [['-', 'd'], ['0', 'x', regToHex a]] ∧ i = .not a) ∨
      (∃ c, c ≠ 'a' ∧ c ≠ 'd' ∧ p.flag = .legacyNot ∧ args = [['-', c], ['0', 'x', regToHex a]] ∧ i = .not a)

/-- R49, R51: a command line is read as an operation exactly where the syntactic check admits it, and refused with a fault
everywhere else. -/
def Obligations.CommandReadExactlyWhereAdmitted : Prop :=
  ∀ (p : Config.Policies) (args : List Text),
    if admittedCommand p.flag args = true then ∃ i, decodeCommand p args = .ok i
    else ∃ f, decodeCommand p args = .error f

/-- R50: an operand is exactly `0`, `x`, uppercase hex digit; every other text is `InvalidHexLiteral`. That the fault records
the whole literal, for a bad digit too, is the model's reading of R130 (log entry 9): R50 gives no recorded value. -/
def Obligations.OperandLiteralIsStrict : Prop :=
  ∀ t : Text,
    (∀ h : Char, parseLiteral t = .ok h ↔ t = ['0', 'x', h] ∧ h ∈ "0123456789ABCDEF".toList) ∧
    (∀ f : Fault, parseLiteral t = .error f → f = .invalidHexLiteral (.literal t)) ∧
    ∀ h : Char, parseLiteral t = .ok h → ∃ n, n ≤ 15 ∧ hexCharToValue h = .ok n

/-- R136, R137 items 1 and 2: no argument at all is `MissingArgument`; then argument 1 is judged alone, whatever the
operands are: not exactly `-` and one character, or an unrecognised character under `reject`, is `InvalidFlag`. What
`MissingArgument` records there is the model's choice (log entry 8). -/
def Obligations.FlagIsCheckedFirst : Prop :=
  (∀ p, parse p [] = .error (.missingArgument none 0)) ∧
  (∀ (p : Config.FlagPolicy) (flag : Text) (operands : List Text), (∀ c, flag ≠ ['-', c]) →
    parse p (flag :: operands) = .error (.invalidFlag flag)) ∧
  (∀ (c : Char) (operands : List Text), c ≠ 'a' ∧ c ≠ 'd' →
    parse .reject (['-', c] :: operands) = .error (.invalidFlag ['-', c])) ∧
  ∀ (p : Config.FlagPolicy) (c : Char) (operands : List Text), p = .legacyNot ∨ c = 'a' ∨ c = 'd' →
    ∀ flag, parse p (['-', c] :: operands) ≠ .error (.invalidFlag flag)

/-- R135, R137 item 3, R139: for an accepted flag the operand count is checked before any literal is read: too few is
`MissingArgument`, too many `ExtraArgument`, for `-a`, `-d` and the other characters. What the two faults record is the
model's choice (log entry 8). -/
def Obligations.CountIsCheckedBeforeLiterals : Prop :=
  ∀ (p : Config.FlagPolicy) (operands : List Text),
    (operands.length < 2 → parse p (['-', 'a'] :: operands) = .error (.missingArgument (some .add) operands.length)) ∧
    (operands.length = 0 → parse p (['-', 'd'] :: operands) = .error (.missingArgument (some .and) operands.length)) ∧
    (2 < operands.length → parse p (['-', 'a'] :: operands) = .error (.extraArgument .add operands.length)) ∧
    (2 < operands.length → parse p (['-', 'd'] :: operands) = .error (.extraArgument .and operands.length)) ∧
    ∀ c : Char, c ≠ 'a' ∧ c ≠ 'd' → p = .legacyNot →
      (operands.length = 0 → parse p (['-', c] :: operands) = .error (.missingArgument (some .not) operands.length)) ∧
      (1 < operands.length → parse p (['-', c] :: operands) = .error (.extraArgument .not operands.length))

/-- R137 item 4: with flag and count accepted, the first operand is judged before the second, and each bad one is
`InvalidHexLiteral`; so is the one bad operand of `-d`, and of another flag character under `legacy_not`. That the fault
records the literal is the model's reading of R130 (log entry 9): R137 gives no recorded value. -/
def Obligations.LiteralsAreCheckedInOrder : Prop :=
  ∀ (p : Config.FlagPolicy) (c : Char),
    (c = 'a' ∨ c = 'd' → ∀ t1 t2 : Text,
      (admittedLiteral t1 = false → parse p [['-', c], t1, t2] = .error (.invalidHexLiteral (.literal t1))) ∧
      (admittedLiteral t1 = true → admittedLiteral t2 = false →
        parse p [['-', c], t1, t2] = .error (.invalidHexLiteral (.literal t2)))) ∧
    (∀ t : Text, admittedLiteral t = false → parse p [['-', 'd'], t] = .error (.invalidHexLiteral (.literal t))) ∧
    (c ≠ 'a' ∧ c ≠ 'd' → p = .legacyNot → ∀ t : Text, admittedLiteral t = false →
      parse p [['-', c], t] = .error (.invalidHexLiteral (.literal t)))

/-- R116: the path from command line to output line, as the spec's `run` writes it, is what a step does with a command
line: the same line printed, and the same fault. -/
def Obligations.RunAgreesWithStep : Prop :=
  ∀ (s : State) (args : List Text),
    (∀ l : Text, run s.policies args = .ok l ↔
      ∃ t, step (s.present (.command args)) = .next t ∧ t.line = some l) ∧
    ∀ f : Fault, run s.policies args = .error f ↔ step (s.present (.command args)) = .fault f

/-- R116, R133: on the command-line path neither `RangeError` nor `ReservedOpcode` occurs, under any policy. -/
def Obligations.CommandPathNeverRangeOrReserved : Prop :=
  ∀ (s : State) (args : List Text),
    (∀ n, step (s.present (.command args)) ≠ .fault (.rangeError n)) ∧
    ∀ info, step (s.present (.command args)) ≠ .fault (.reservedOpcode info)

/-- R52, R116: a line is printed for a command line, and it is the line of the operation it denotes; the ports and the
operation word print none (log entry 7). -/
def Obligations.LinePrintedForCommandsOnly : Prop :=
  ∀ (s : State) (i : Instr),
    (∀ args, decodeCommand s.policies args = .ok i →
      ∃ t o, step (s.present (.command args)) = .next t ∧ t.outputs = some o ∧ t.line = some (outputLine i.opcode o)) ∧
    (∀ op a b, decodePorts s.policies op a b = .ok i →
      ∃ t, step (s.present (.ports op a b)) = .next t ∧ t.line = none) ∧
    ∀ w, decodeWord s.policies w = .ok i → ∃ t, step (s.present (.word w)) = .next t ∧ t.line = none

/-! The invocation -/

/-- The step runs the instruction that the presented request stands for, on the state as it is, and adds the printing of the
line where the request is a command line; a request that stands for none ends in its fault. -/
def Obligations.StepRunsTheDecodedInstruction : Prop :=
  ∀ (s : State) (q : Request), s.request = some q →
    (∀ i, fetch s.policies q = .ok i → ∃ t, exec i s = .next t ∧ step s = .next (t.deliver q i.opcode)) ∧
    ∀ f, fetch s.policies q = .error f → step s = .fault f

/-- R110: the spec's `invoke`, a function of the control field and the two operand ports, is what a step does with the
ports: the same four outputs, and the same fault. -/
def Obligations.InvokeAgreesWithStep : Prop :=
  ∀ (s : State) (op : BitVec 2) (a b : Register),
    match invoke s.policies.reservedOp op a b with
    | .ok o => ∃ t, step (s.present (.ports op a b)) = .next t ∧ t.outputs = some o
    | .error f => step (s.present (.ports op a b)) = .fault f

/-- R43, D4: the operation word carries the port inputs: a step on the word that packs them has the outputs of a step on
the ports, and faults exactly where that one does. -/
def Obligations.WordCarriesThePorts : Prop :=
  ∀ (s : State) (op : BitVec 2) (a b : Register),
    (∀ o, (∃ t, step (s.present (.word (packWord op a b))) = .next t ∧ t.outputs = some o) ↔
      ∃ t, step (s.present (.ports op a b)) = .next t ∧ t.outputs = some o) ∧
    ((∃ f, step (s.present (.word (packWord op a b))) = .fault f) ↔ ∃ f, step (s.present (.ports op a b)) = .fault f)

/-- R45: two NOT requests that differ in the second operand only end alike, but for the input that is still presented. -/
def Obligations.NotIgnoresSecondOperand : Prop :=
  ∀ (s : State) (a b b' : Register), ∃ t, step (s.present (.ports 0b01#2 a b)) = .next t ∧ t.B = Register.zero ∧
    step (s.present (.ports 0b01#2 a b')) = .next (t.present (.ports 0b01#2 a b')) ∧
    ∃ u, step (s.present (.word (packWord 0b01#2 a b))) = .next u ∧
      step (s.present (.word (packWord 0b01#2 a b'))) = .next (u.present (.word (packWord 0b01#2 a b')))

/-- R42, R132: control code 11 ends in `ReservedOpcode` under the policy `fault`, at the ports and in a word, which raise no
other fault; under the policy `not` it behaves as code 01. -/
def Obligations.ReservedCodeByPolicy : Prop :=
  ∀ (s : State) (a b : Register) (op : BitVec 2) (w : BitVec 10) (f : Fault),
    (step (s.present (.ports op a b)) = .fault f ↔
      op = 0b11#2 ∧ s.policies.reservedOp = .fault ∧ f = .reservedOpcode (.field op)) ∧
    (step (s.present (.word w)) = .fault f ↔
      0x300 ≤ w.toNat ∧ s.policies.reservedOp = .fault ∧ f = .reservedOpcode (.word w)) ∧
    (s.policies.reservedOp = .not → ∃ t, step (s.present (.ports 0b01#2 a b)) = .next t ∧
      step (s.present (.ports 0b11#2 a b)) = .next (t.present (.ports 0b11#2 a b)))

/-- R25, R36: the outcome depends on the presented request and the model arguments alone: two states that agree on the
model arguments end alike, whatever their registers, outputs, line and earlier request. -/
def Obligations.OutcomeDependsOnInputsOnly : Prop :=
  ∀ (s s' : State) (q : Request), s.policies = s'.policies → step (s.present q) = step (s'.present q)

/-- R33: the same inputs give the same outcome every time, here the same state. That the inputs are still presented for the
second step, because a step leaves its request as it is, is the model's choice (log entry 3). -/
def Obligations.StepIsIdempotent : Prop :=
  ∀ s t : State, step s = .next t → step t = .next t

/-- R25: an invocation that the host presents ends in outputs or in a fault and in nothing else; and a host's invocations
one after another on one block end each as it would alone on a block just reset, so that no register value, no fault and no
line survives from one to the next. -/
def Obligations.InvocationsAreIndependent : Prop :=
  (∀ (s : State) (q : Request),
    (∃ t o, step (s.present q) = .next t ∧ t.outputs = some o) ∨ ∃ f, step (s.present q) = .fault f) ∧
  ∀ (s : State) (qs : List Request),
    perform s qs = qs.map (fun q => step ((State.reset.present q).withPolicies s.policies))

/-- R131: a fault does not persist: where an invocation faults, the one after it starts from reset and is unaffected,
whatever the block held before the fault. That a host goes on from the state in which the faulting invocation began is the
model's reading (log entry 20); the outcome does not depend on it. -/
def Obligations.FaultDoesNotPersist : Prop :=
  ∀ (s : State) (q q' : Request) (f : Fault), step (s.present q) = .fault f →
    perform s [q, q'] = [.fault f, step ((State.reset.present q').withPolicies s.policies)]

/-- R54: a host computes the two's complement of `a` with two invocations, NOT and then ADD with 1. -/
def Obligations.NotThenAddOneNegates : Prop :=
  ∀ (s : State) (a : Register), ∃ t o u o', step (s.present (.ports 0b01#2 a Register.zero)) = .next t ∧
    t.outputs = some o ∧ step (t.present (.ports 0b00#2 o.y one)) = .next u ∧ u.outputs = some o' ∧ o'.y = negate a

/-- R16 to R18, R20, R111 to R115: every step keeps the state coherent: outputs show the registers, the registers hold one
operation's result on the operands, a printed line is that operation's. -/
def Obligations.StepKeepsCoherence : Prop :=
  ∀ s t : State, s.Coherent → step s = .next t → t.Coherent

/-- The invariant of `StepKeepsCoherence` holds at reset. -/
def Obligations.ResetIsCoherent : Prop :=
  State.reset.Coherent

/-- R26: the registers at the start of an invocation, the constant ONE, and the sign wire. -/
def Obligations.ResetRegistersAreZero : Prop :=
  State.reset.A = ⟨0, 0, 0, 0⟩ ∧ State.reset.B = ⟨0, 0, 0, 0⟩ ∧ State.reset.R = ⟨0, 0, 0, 0⟩ ∧
  State.reset.S = ⟨0, 0, 0, 0⟩ ∧ one = ⟨0, 0, 0, 1⟩ ∧ signBit State.reset.R = 0 ∧
  ∀ s : State, s.beginInvocation.A = ⟨0, 0, 0, 0⟩ ∧ s.beginInvocation.B = ⟨0, 0, 0, 0⟩ ∧
    s.beginInvocation.R = ⟨0, 0, 0, 0⟩ ∧ s.beginInvocation.S = ⟨0, 0, 0, 0⟩
end

