-- ==== Sys2Proof/Laws/State.lean ====
section
/-! SUPPORT. One lemma per field per update of the state, so that no proof unfolds a record update; and the same for the two
conditional updates, `negateIfNegative` and `deliver`. -/

namespace Sys2Proof.Machine.State

variable (s : State)

@[simp] theorem beginInvocation_A : s.beginInvocation.A = Register.zero := rfl
@[simp] theorem beginInvocation_B : s.beginInvocation.B = Register.zero := rfl
@[simp] theorem beginInvocation_R : s.beginInvocation.R = Register.zero := rfl
@[simp] theorem beginInvocation_S : s.beginInvocation.S = Register.zero := rfl
@[simp] theorem beginInvocation_outputs : s.beginInvocation.outputs = none := rfl
@[simp] theorem beginInvocation_line : s.beginInvocation.line = none := rfl
@[simp] theorem beginInvocation_request : s.beginInvocation.request = s.request := rfl
@[simp] theorem beginInvocation_policies : s.beginInvocation.policies = s.policies := rfl

@[simp] theorem loadA_A (a : Register) : (s.loadA a).A = a := rfl
@[simp] theorem loadA_B (a : Register) : (s.loadA a).B = s.B := rfl
@[simp] theorem loadA_R (a : Register) : (s.loadA a).R = s.R := rfl
@[simp] theorem loadA_S (a : Register) : (s.loadA a).S = s.S := rfl
@[simp] theorem loadA_outputs (a : Register) : (s.loadA a).outputs = s.outputs := rfl
@[simp] theorem loadA_line (a : Register) : (s.loadA a).line = s.line := rfl
@[simp] theorem loadA_request (a : Register) : (s.loadA a).request = s.request := rfl
@[simp] theorem loadA_policies (a : Register) : (s.loadA a).policies = s.policies := rfl

@[simp] theorem loadB_A (b : Register) : (s.loadB b).A = s.A := rfl
@[simp] theorem loadB_B (b : Register) : (s.loadB b).B = b := rfl
@[simp] theorem loadB_R (b : Register) : (s.loadB b).R = s.R := rfl
@[simp] theorem loadB_S (b : Register) : (s.loadB b).S = s.S := rfl
@[simp] theorem loadB_outputs (b : Register) : (s.loadB b).outputs = s.outputs := rfl
@[simp] theorem loadB_line (b : Register) : (s.loadB b).line = s.line := rfl
@[simp] theorem loadB_request (b : Register) : (s.loadB b).request = s.request := rfl
@[simp] theorem loadB_policies (b : Register) : (s.loadB b).policies = s.policies := rfl

@[simp] theorem writeR_A (r : Register) : (s.writeR r).A = s.A := rfl
@[simp] theorem writeR_B (r : Register) : (s.writeR r).B = s.B := rfl
@[simp] theorem writeR_R (r : Register) : (s.writeR r).R = r := rfl
@[simp] theorem writeR_S (r : Register) : (s.writeR r).S = s.S := rfl
@[simp] theorem writeR_outputs (r : Register) : (s.writeR r).outputs = s.outputs := rfl
@[simp] theorem writeR_line (r : Register) : (s.writeR r).line = s.line := rfl
@[simp] theorem writeR_request (r : Register) : (s.writeR r).request = s.request := rfl
@[simp] theorem writeR_policies (r : Register) : (s.writeR r).policies = s.policies := rfl

@[simp] theorem writeS_A (r : Register) : (s.writeS r).A = s.A := rfl
@[simp] theorem writeS_B (r : Register) : (s.writeS r).B = s.B := rfl
@[simp] theorem writeS_R (r : Register) : (s.writeS r).R = s.R := rfl
@[simp] theorem writeS_S (r : Register) : (s.writeS r).S = r := rfl
@[simp] theorem writeS_outputs (r : Register) : (s.writeS r).outputs = s.outputs := rfl
@[simp] theorem writeS_line (r : Register) : (s.writeS r).line = s.line := rfl
@[simp] theorem writeS_request (r : Register) : (s.writeS r).request = s.request := rfl
@[simp] theorem writeS_policies (r : Register) : (s.writeS r).policies = s.policies := rfl

@[simp] theorem driveOutputs_A (n : Bit) : (s.driveOutputs n).A = s.A := rfl
@[simp] theorem driveOutputs_B (n : Bit) : (s.driveOutputs n).B = s.B := rfl
@[simp] theorem driveOutputs_R (n : Bit) : (s.driveOutputs n).R = s.R := rfl
@[simp] theorem driveOutputs_S (n : Bit) : (s.driveOutputs n).S = s.S := rfl
@[simp] theorem driveOutputs_outputs (n : Bit) : (s.driveOutputs n).outputs = some ⟨s.R, regToHex s.R, n, s.S⟩ := rfl
@[simp] theorem driveOutputs_line (n : Bit) : (s.driveOutputs n).line = s.line := rfl
@[simp] theorem driveOutputs_request (n : Bit) : (s.driveOutputs n).request = s.request := rfl
@[simp] theorem driveOutputs_policies (n : Bit) : (s.driveOutputs n).policies = s.policies := rfl

@[simp] theorem present_A (q : Request) : (s.present q).A = s.A := rfl
@[simp] theorem present_B (q : Request) : (s.present q).B = s.B := rfl
@[simp] theorem present_R (q : Request) : (s.present q).R = s.R := rfl
@[simp] theorem present_S (q : Request) : (s.present q).S = s.S := rfl
@[simp] theorem present_outputs (q : Request) : (s.present q).outputs = s.outputs := rfl
@[simp] theorem present_line (q : Request) : (s.present q).line = s.line := rfl
@[simp] theorem present_request (q : Request) : (s.present q).request = some q := rfl
@[simp] theorem present_policies (q : Request) : (s.present q).policies = s.policies := rfl

@[simp] theorem withPolicies_A (p : Config.Policies) : (s.withPolicies p).A = s.A := rfl
@[simp] theorem withPolicies_B (p : Config.Policies) : (s.withPolicies p).B = s.B := rfl
@[simp] theorem withPolicies_R (p : Config.Policies) : (s.withPolicies p).R = s.R := rfl
@[simp] theorem withPolicies_S (p : Config.Policies) : (s.withPolicies p).S = s.S := rfl
@[simp] theorem withPolicies_outputs (p : Config.Policies) : (s.withPolicies p).outputs = s.outputs := rfl
@[simp] theorem withPolicies_line (p : Config.Policies) : (s.withPolicies p).line = s.line := rfl
@[simp] theorem withPolicies_request (p : Config.Policies) : (s.withPolicies p).request = s.request := rfl
@[simp] theorem withPolicies_policies (p : Config.Policies) : (s.withPolicies p).policies = p := rfl

@[simp] theorem printLine_A (op : Opcode) : (s.printLine op).A = s.A := rfl
@[simp] theorem printLine_B (op : Opcode) : (s.printLine op).B = s.B := rfl
@[simp] theorem printLine_R (op : Opcode) : (s.printLine op).R = s.R := rfl
@[simp] theorem printLine_S (op : Opcode) : (s.printLine op).S = s.S := rfl
@[simp] theorem printLine_outputs (op : Opcode) : (s.printLine op).outputs = s.outputs := rfl
@[simp] theorem printLine_line (op : Opcode) : (s.printLine op).line = s.outputs.map (outputLine op) := rfl
@[simp] theorem printLine_request (op : Opcode) : (s.printLine op).request = s.request := rfl
@[simp] theorem printLine_policies (op : Opcode) : (s.printLine op).policies = s.policies := rfl

@[simp] theorem negateIfNegative_A : s.negateIfNegative.A = s.A := by
  unfold negateIfNegative; split <;> rfl
@[simp] theorem negateIfNegative_B : s.negateIfNegative.B = s.B := by
  unfold negateIfNegative; split <;> rfl
@[simp] theorem negateIfNegative_R : s.negateIfNegative.R = s.R := by
  unfold negateIfNegative; split <;> rfl
@[simp] theorem negateIfNegative_S :
    s.negateIfNegative.S = if signBit s.R = 1 then negate s.R else s.S := by
  unfold negateIfNegative; split <;> rfl
@[simp] theorem negateIfNegative_outputs : s.negateIfNegative.outputs = s.outputs := by
  unfold negateIfNegative; split <;> rfl
@[simp] theorem negateIfNegative_line : s.negateIfNegative.line = s.line := by
  unfold negateIfNegative; split <;> rfl
@[simp] theorem negateIfNegative_request : s.negateIfNegative.request = s.request := by
  unfold negateIfNegative; split <;> rfl
@[simp] theorem negateIfNegative_policies : s.negateIfNegative.policies = s.policies := by
  unfold negateIfNegative; split <;> rfl

@[simp] theorem deliver_A (q : Request) (op : Opcode) : (s.deliver q op).A = s.A := by
  cases q <;> rfl
@[simp] theorem deliver_B (q : Request) (op : Opcode) : (s.deliver q op).B = s.B := by
  cases q <;> rfl
@[simp] theorem deliver_R (q : Request) (op : Opcode) : (s.deliver q op).R = s.R := by
  cases q <;> rfl
@[simp] theorem deliver_S (q : Request) (op : Opcode) : (s.deliver q op).S = s.S := by
  cases q <;> rfl
@[simp] theorem deliver_outputs (q : Request) (op : Opcode) : (s.deliver q op).outputs = s.outputs := by
  cases q <;> rfl
@[simp] theorem deliver_request (q : Request) (op : Opcode) : (s.deliver q op).request = s.request := by
  cases q <;> rfl
@[simp] theorem deliver_policies (q : Request) (op : Opcode) : (s.deliver q op).policies = s.policies := by
  cases q <;> rfl
@[simp] theorem deliver_ports (op : BitVec 2) (a b : Register) (o : Opcode) : s.deliver (.ports op a b) o = s := rfl
@[simp] theorem deliver_word (w : BitVec 10) (o : Opcode) : s.deliver (.word w) o = s := rfl
@[simp] theorem deliver_command (args : List Text) (o : Opcode) : s.deliver (.command args) o = s.printLine o := rfl

end Sys2Proof.Machine.State
end

