-- ==== Sys2Proof/Laws/Ops.lean ====
section
/-! SUPPORT. What each shared operation and each meaning can do, said once: the closed form of the three meanings, of the
selection of an instruction by a control field, and the three cases of a step. -/

namespace Sys2Proof.Machine

/-- Two states with equal fields are equal. -/
theorem State.eq_of_fields {s t : State} (hA : s.A = t.A) (hB : s.B = t.B) (hR : s.R = t.R) (hS : s.S = t.S)
    (ho : s.outputs = t.outputs) (hl : s.line = t.line) (hq : s.request = t.request) (hp : s.policies = t.policies) :
    s = t := by
  cases s; cases t; simp_all

/-- The state that ADD leaves. -/
theorem execAdd_eq (a b : Register) (s : State) :
    execAdd a b s = .next
      { A := a, B := b, R := add a b,
        S := if signBit (add a b) = 1 then negate (add a b) else Register.zero,
        outputs := some ⟨add a b, regToHex (add a b), signBit (add a b),
          if signBit (add a b) = 1 then negate (add a b) else Register.zero⟩,
        line := none, request := s.request, policies := s.policies } := by
  unfold execAdd
  refine congrArg Host.Outcome.next (State.eq_of_fields ?_ ?_ ?_ ?_ ?_ ?_ ?_ ?_) <;> simp <;> rfl

/-- The state that AND leaves. -/
theorem execAnd_eq (a b : Register) (s : State) :
    execAnd a b s = .next
      { A := a, B := b, R := bitwiseAnd a b, S := Register.zero,
        outputs := some ⟨bitwiseAnd a b, regToHex (bitwiseAnd a b), 0, Register.zero⟩,
        line := none, request := s.request, policies := s.policies } := rfl

/-- The state that NOT leaves. -/
theorem execNot_eq (a : Register) (s : State) :
    execNot a s = .next
      { A := a, B := Register.zero, R := bitwiseNot a, S := Register.zero,
        outputs := some ⟨bitwiseNot a, regToHex (bitwiseNot a), 0, Register.zero⟩,
        line := none, request := s.request, policies := s.policies } := rfl

/-- A control field selects ADD, NOT or AND, or is the reserved code and does what the policy says. -/
theorem select_cases (p : Config.Policies) (info : ReservedInfo) (op : BitVec 2) (a b : Register) :
    (op = 0b00#2 ∧ select p info op a b = .ok (.add a b)) ∨
    (op = 0b01#2 ∧ select p info op a b = .ok (.not a)) ∨
    (op = 0b10#2 ∧ select p info op a b = .ok (.and a b)) ∨
    (op = 0b11#2 ∧ p.reservedOp = .fault ∧ select p info op a b = .error (.reservedOpcode info)) ∨
    (op = 0b11#2 ∧ p.reservedOp = .not ∧ select p info op a b = .ok (.not a)) := by
  have h : op = 0b00#2 ∨ op = 0b01#2 ∨ op = 0b10#2 ∨ op = 0b11#2 := by revert op; decide
  rcases h with rfl | rfl | rfl | rfl
  · exact .inl ⟨rfl, rfl⟩
  · exact .inr (.inl ⟨rfl, rfl⟩)
  · exact .inr (.inr (.inl ⟨rfl, rfl⟩))
  · rcases p with ⟨_ | _, _, _⟩
    · exact .inr (.inr (.inr (.inl ⟨rfl, rfl, rfl⟩)))
    · exact .inr (.inr (.inr (.inr ⟨rfl, rfl, rfl⟩)))

/-- Nothing presented: there is no invocation. -/
theorem step_of_none {s : State} (h : s.request = none) : step s = .refused .noInvocation := by
  simp [step, h]

/-- What a step that answers a next state did: the request stood for an instruction, and the state is that instruction's,
with its line printed where the request is a command line. -/
theorem step_next_cases {s t : State} (h : step s = .next t) :
    ∃ q i u, s.request = some q ∧ fetch s.policies q = .ok i ∧ exec i s = .next u ∧ t = u.deliver q i.opcode := by
  unfold step at h
  split at h
  · cases h
  · rename_i q hq
    split at h
    · cases h
    · rename_i i hi
      split at h
      · rename_i u hu
        injection h with h
        exact ⟨q, i, u, hq, hi, hu, h.symm⟩
      · cases h
      · cases h

end Sys2Proof.Machine
end

