-- ==== Sys2Proof/Laws/Registers.lean ====
section
/-! SUPPORT. How to go through the 16 Registers and the four control codes, and the fields of a packed word. -/

namespace Sys2Proof.Machine

/-- A property of Registers holds of all of them where it holds of every choice of four Bits; `decide` can go through those. -/
theorem forall_register {P : Register → Prop} (h : ∀ b0 b1 b2 b3 : Bit, P ⟨b0, b1, b2, b3⟩) (r : Register) : P r :=
  h r.b0 r.b1 r.b2 r.b3

/-- The same for two Registers. -/
theorem forall_two_registers {P : Register → Register → Prop}
    (h : ∀ a0 a1 a2 a3 b0 b1 b2 b3 : Bit, P ⟨a0, a1, a2, a3⟩ ⟨b0, b1, b2, b3⟩) (a b : Register) : P a b :=
  h a.b0 a.b1 a.b2 a.b3 b.b0 b.b1 b.b2 b.b3

/-- A gate's normalisation does nothing to a Bit that is on a wire. -/
@[simp] theorem normBit_bitInt (b : Bit) : normBit (bitInt b) = b := by
  revert b; decide

/-- The sign wire says which half of the values a Register is in. -/
theorem b0_eq_one_iff : ∀ r : Register, r.b0 = 1 ↔ 8 ≤ val r :=
  forall_register (by decide)

/-- There are four control codes. -/
theorem control_cases : ∀ op : BitVec 2, op = 0b00#2 ∨ op = 0b01#2 ∨ op = 0b10#2 ∨ op = 0b11#2 := by
  decide

/-- A Register survives its field. -/
@[simp] theorem regOfField_fieldOfReg : ∀ r : Register, regOfField (fieldOfReg r) = r :=
  forall_register (by decide)

/-- A field survives its Register. -/
@[simp] theorem fieldOfReg_regOfField : ∀ f : BitVec 4, fieldOfReg (regOfField f) = f := by
  decide

/-- A field's number is its Register's value. -/
@[simp] theorem fieldOfReg_toNat : ∀ r : Register, (fieldOfReg r).toNat = val r :=
  forall_register (by decide)

@[simp] theorem opField_packWord (op : BitVec 2) (a b : Register) : opField (packWord op a b) = op := by
  unfold opField packWord
  rw [BitVec.extractLsb'_append_eq_of_le (by decide), BitVec.extractLsb'_append_eq_of_le (by decide)]
  simp

@[simp] theorem aField_packWord (op : BitVec 2) (a b : Register) : aField (packWord op a b) = fieldOfReg a := by
  unfold aField packWord
  rw [BitVec.extractLsb'_append_eq_of_le (by decide), BitVec.extractLsb'_append_eq_of_add_le (by decide)]
  simp

@[simp] theorem bField_packWord (op : BitVec 2) (a b : Register) : bField (packWord op a b) = fieldOfReg b := by
  unfold bField packWord
  rw [BitVec.extractLsb'_append_eq_of_add_le (by decide)]
  simp

end Sys2Proof.Machine
end

