-- ==== Sys2Proof/Laws/PerInstr.lean ====
section
/-! SUPPORT. The statements made per instruction. CodeInWord: the control field of an instruction's word is the code of its
operation (spec/30_encoding.md rules R41, R43). -/

/-- The word of an instruction carries its operation's control code in bits 9:8. -/
def Sys2Proof.Laws.CodeInWord.Statement (i : Sys2Proof.Instr) : Prop :=
  Sys2Proof.opField (Sys2Proof.encode i) = i.opcode.code

theorem Sys2Proof.Laws.CodeInWord.add (a b : Sys2Proof.Register) :
    Sys2Proof.Laws.CodeInWord.Statement (.add a b) :=
  Sys2Proof.Machine.opField_packWord _ _ _

theorem Sys2Proof.Laws.CodeInWord.not (a : Sys2Proof.Register) : Sys2Proof.Laws.CodeInWord.Statement (.not a) :=
  Sys2Proof.Machine.opField_packWord _ _ _

theorem Sys2Proof.Laws.CodeInWord.and (a b : Sys2Proof.Register) :
    Sys2Proof.Laws.CodeInWord.Statement (.and a b) :=
  Sys2Proof.Machine.opField_packWord _ _ _
end

