-- ==== Sys2Proof/Tests/Slice0.lean ====
section
/-! SUPPORT. The model's own tests. Expected results come from the spec's worked examples and tables
(spec/95_test_vectors.md S2, V1, V2, V4, V8; spec/41_codec.md rule R77), not from the model. At the end stand the witnesses
of the hypotheses of the statements in Certificates/Slice0/Obligations.lean. -/

namespace Sys2Proof.Tests

open Machine

/-- The outputs of a step that answers a next state. -/
def outputsOfStep (s : State) : Option Outputs :=
  match step s with
  | .next t => t.outputs
  | .fault _ => none
  | .refused _ => none

/-- The line printed by a step that answers a next state. -/
def lineOfStep (s : State) : Option Text :=
  match step s with
  | .next t => t.line
  | .fault _ => none
  | .refused _ => none

/-- The fault of a step. -/
def faultOfStep (s : State) : Option Fault :=
  match step s with
  | .next _ => none
  | .fault f => some f
  | .refused _ => none

/-- A block just reset, with the arguments of a command line presented. -/
def commanded (args : List Text) : State := State.reset.present (.command args)

/-- A block just reset, with an operation word presented as the host presents it. -/
def worded (w : Nat) : State := State.reset.withFetchWord 16 w

/-- A block with the other choice for each of the three model arguments. -/
def otherPolicies : Config.Policies := ⟨.not, .mask, .reject⟩

/-- A block in which an earlier invocation left every register set. -/
def usedBlock : State :=
  { State.reset with A := ⟨1, 1, 1, 1⟩, B := ⟨1, 0, 1, 1⟩, R := ⟨0, 1, 1, 0⟩, S := ⟨1, 0, 0, 1⟩ }

/-! Decoding: words written out bit by bit from the pattern `ooaaaabbbb` (R43), one of every row of the opcode table. -/

theorem test_decode_add : decodeTableWord 16 0b0010010001 = some (.add ⟨1, 0, 0, 1⟩ ⟨0, 0, 0, 1⟩) := by decide
theorem test_decode_not : decodeTableWord 16 0b0101010000 = some (.not ⟨0, 1, 0, 1⟩) := by decide
theorem test_decode_not_ignores_b : decodeTableWord 16 0b0101011001 = some (.not ⟨0, 1, 0, 1⟩) := by decide
theorem test_decode_and : decodeTableWord 16 0b1011001010 = some (.and ⟨1, 1, 0, 0⟩ ⟨1, 0, 1, 0⟩) := by decide
theorem test_decode_reserved : decodeTableWord 16 0b1110100101 = none := by decide
theorem test_decode_no_word : decodeTableWord 16 0b10000000000 = none := by decide
theorem test_encode_words :
    (encode (.add ⟨1, 0, 0, 1⟩ ⟨0, 0, 0, 1⟩)).toNat = 0x091 ∧ (encode (.not ⟨0, 1, 0, 1⟩)).toNat = 0x150 ∧
    (encode (.and ⟨1, 1, 0, 0⟩ ⟨1, 0, 1, 0⟩)).toNat = 0x2CA := by decide

/-! WellFormed: an ill-formed spelling for each check, which the check refuses, beside one it admits. -/

theorem test_canonical_word_admits : canonicalWord 0x150#10 = true := by decide
theorem test_canonical_word_refuses_reserved : canonicalWord 0x300#10 = false := by decide
theorem test_canonical_word_refuses_not_with_b : canonicalWord 0x159#10 = false := by decide
theorem test_literal_admits : admittedLiteral ['0', 'x', 'F'] = true := by decide
theorem test_literal_refuses_lowercase : admittedLiteral ['0', 'x', 'a'] = false := by decide
theorem test_literal_refuses_uppercase_x : admittedLiteral ['0', 'X', '3'] = false := by decide
theorem test_literal_refuses_length : admittedLiteral ['0', 'x', '1', 'F'] = false := by decide
theorem test_command_admits : admittedCommand .legacyNot [['-', 'd'], ['0', 'x', '5']] = true := by decide
theorem test_command_refuses_count : admittedCommand .legacyNot [['-', 'a'], ['0', 'x', '9']] = false := by decide
theorem test_command_refuses_flag : admittedCommand .reject [['-', 'n'], ['0', 'x', '5']] = false := by decide
theorem test_command_refuses_dash : admittedCommand .legacyNot [['a'], ['0', 'x', '3'], ['0', 'x', '4']] = false := by
  decide

/-! Gates and codec: V1, V2, R77. -/

theorem test_gates_normalise :
    gateAnd 3 5 = 1 ∧ gateAnd 2 1 = 0 ∧ gateOr 2 4 = 0 ∧ gateOr 2 3 = 1 ∧ gateXor 2 0 = 0 ∧ gateXor 255 256 = 1 ∧
    gateNot 2 = 1 ∧ gateNot 3 = 0 ∧ normBit (-1) = 1 ∧ normBit (-2) = 0 ∧ gateAnd (-1) 1 = 1 := by decide
theorem test_codec_signed_column :
    (List.range 16).map (fun n => sval (expand n)) = [0, 1, 2, 3, 4, 5, 6, 7, -8, -7, -6, -5, -4, -3, -2, -1] := by decide
theorem test_codec_hex_column :
    (List.range 16).map (fun n => regToHex (expand n)) =
      ['0', '1', '2', '3', '4', '5', '6', '7', '8', '9', 'A', 'B', 'C', 'D', 'E', 'F'] := by decide
theorem test_codec_policies :
    decodeTableWord 16 0x0AF = some (.add (expand 10) (expand 15)) ∧
    (decimalToBinary .mask 26).toOption = some ⟨1, 0, 1, 0⟩ ∧ (decimalToBinary .mask (-1)).toOption = some ⟨1, 1, 1, 1⟩ ∧
    (decimalToBinary .fault 16).toOption = none ∧ (hexDigit 16).toOption = none ∧
    (hexCharToValue 'a').toOption = none ∧ (hexCharToValue 'C').toOption = some 12 := by decide
theorem test_register_normalises_wider_values : registerOfInts 3 2 (-1) 4 = ⟨1, 0, 1, 0⟩ := by decide

/-! Units: V4, V6. -/

theorem test_adder_wires_6_7 :
    adderCells ⟨0, 1, 1, 0⟩ ⟨0, 1, 1, 1⟩ =
      { c3 := ⟨1, 0, 1, 0, 0⟩, c2 := ⟨0, 1, 0, 0, 1⟩, c1 := ⟨0, 1, 1, 0, 1⟩, c0 := ⟨0, 0, 1, 0, 0⟩ } := by decide
theorem test_negate_corners :
    negate ⟨0, 0, 0, 0⟩ = ⟨0, 0, 0, 0⟩ ∧ negate ⟨1, 0, 0, 0⟩ = ⟨1, 0, 0, 0⟩ ∧ negate ⟨1, 0, 1, 0⟩ = ⟨0, 1, 1, 0⟩ := by
  decide

/-! The operations: S2.4, S2.2; S2.5, V7; S2.6, V7. -/

theorem test_add_9_1 : outputsOfStep (worded 0x091) = some ⟨⟨1, 0, 1, 0⟩, 'A', 1, ⟨0, 1, 1, 0⟩⟩ := by decide
theorem test_add_wraps : outputsOfStep (worded 0x0F1) = some ⟨⟨0, 0, 0, 0⟩, '0', 0, ⟨0, 0, 0, 0⟩⟩ := by decide
theorem test_and_C_A : outputsOfStep (worded 0x2CA) = some ⟨⟨1, 0, 0, 0⟩, '8', 0, ⟨0, 0, 0, 0⟩⟩ := by decide
theorem test_and_F_F_prints_unsigned :
    lineOfStep (commanded [['-', 'd'], ['0', 'x', 'F'], ['0', 'x', 'F']]) =
      some ['-', '>', ' ', '0', 'x', 'F', ' ', '=', ' ', '1', '5', '\n'] := by decide
theorem test_not_with_b_field : outputsOfStep (worded 0x159) = some ⟨⟨1, 0, 1, 0⟩, 'A', 0, ⟨0, 0, 0, 0⟩⟩ := by decide
theorem test_not_prints_no_decimal :
    lineOfStep (commanded [['-', 'd'], ['0', 'x', '5']]) = some ['-', '>', ' ', '0', 'x', 'A', '\n'] := by decide

/-! Faults: V8. -/

theorem test_reserved_faults : faultOfStep (worded 0x3A5) = some (.reservedOpcode (.word 0x3A5#10)) := by decide
theorem test_reserved_as_not :
    outputsOfStep ((worded 0x3A5).withPolicies otherPolicies) = some ⟨⟨0, 1, 0, 1⟩, '5', 0, ⟨0, 0, 0, 0⟩⟩ := by decide
theorem test_command_add :
    lineOfStep (commanded [['-', 'a'], ['0', 'x', 'A'], ['0', 'x', '1']]) =
      some ['-', '>', ' ', '0', 'x', 'B', ' ', '=', ' ', '-', '5', '\n'] := by decide
theorem test_command_empty : faultOfStep (commanded []) = some (.missingArgument none 0) := by decide
theorem test_command_missing : faultOfStep (commanded [['-', 'a'], ['0', 'x', 'G']]) = some (.missingArgument (some .add) 1) := by
  decide
theorem test_command_extra :
    faultOfStep (commanded [['-', 'n'], ['0', 'x', '5'], ['0', 'x', '3']]) = some (.extraArgument .not 2) := by decide
theorem test_command_long_flag :
    faultOfStep (commanded [['-', 'a', 'd', 'd'], ['0', 'x', '3']]) = some (.invalidFlag ['-', 'a', 'd', 'd']) := by decide
theorem test_command_flag_before_literal :
    faultOfStep ((commanded [['-', 'q'], ['0', 'x', 'Z']]).withPolicies otherPolicies) =
      some (.invalidFlag ['-', 'q']) := by decide
theorem test_command_bad_literal :
    faultOfStep (commanded [['-', 'q'], ['0', 'x', 'Z']]) = some (.invalidHexLiteral (.literal ['0', 'x', 'Z'])) := by decide

/-! Witnesses: for every statement with hypotheses a concrete case that meets them all, and one for each clause at a
boundary of its range. -/

theorem witness_RegisterValueIsBijection :
    val ⟨1, 1, 1, 1⟩ = val ⟨1, 1, 1, 1⟩ ∧ 15 ≤ 15 ∧ (decimalToBinary .fault (15 : Nat)).toOption = some ⟨1, 1, 1, 1⟩ := by
  decide
theorem witness_DecimalToBinaryByPolicy :
    (0 ≤ (0 : Int) ∧ (0 : Int) ≤ 15) ∧ (0 ≤ (15 : Int) ∧ (15 : Int) ≤ 15) ∧ ¬(0 ≤ (16 : Int) ∧ (16 : Int) ≤ 15) ∧
    ¬(0 ≤ (-1 : Int) ∧ (-1 : Int) ≤ 15) := by decide
theorem witness_DecimalRoundTrip : ((decimalToBinary .mask (15 : Nat)).map binaryToDecimal).toOption = some 15 := by decide
theorem witness_HexDigitOnlyInRange :
    (hexDigit 0).toOption = some '0' ∧ (hexDigit 15).toOption = some 'F' ∧ ¬(0 ≤ (16 : Int) ∧ (16 : Int) ≤ 15) ∧
    ¬(0 ≤ (-1 : Int) ∧ (-1 : Int) ≤ 15) := by decide
theorem witness_HexCharToValueInvertsAlphabet : 'g' ∉ hexAlpha ∧ 'F' ∈ hexAlpha := by decide
theorem witness_HexRoundTrip : '0' ∈ hexAlpha ∧ ((hexDigit (15 : Nat)).bind hexCharToValue).toOption = some 15 := by decide
theorem witness_OverflowIsNotObservable :
    add ⟨1, 1, 1, 1⟩ ⟨0, 0, 0, 1⟩ = add ⟨0, 0, 0, 0⟩ ⟨0, 0, 0, 0⟩ ∧
    droppedCarry ⟨1, 1, 1, 1⟩ ⟨0, 0, 0, 1⟩ ≠ droppedCarry ⟨0, 0, 0, 0⟩ ⟨0, 0, 0, 0⟩ := by decide
theorem witness_EncodeOfDecodeOnCanonicalWords :
    canonicalWord 0x000#10 = true ∧ canonicalWord 0x1F0#10 = true ∧ canonicalWord 0x2FF#10 = true ∧
    encode (.and ⟨1, 1, 1, 1⟩ ⟨1, 1, 1, 1⟩) = 0x2FF#10 := by decide
theorem witness_NegatorWorksOnACopy :
    (add ⟨0, 1, 0, 0⟩ ⟨0, 1, 0, 0⟩).bit 0 = 1 ∧ (add ⟨0, 0, 1, 1⟩ ⟨0, 1, 0, 0⟩).bit 0 = 0 := by decide
theorem witness_AdmittedSpellingsDenote :
    ('n' ≠ 'a' ∧ 'n' ≠ 'd') ∧ Config.defaults.flag = .legacyNot ∧
    (decodeCommand Config.defaults [['-', 'n'], ['0', 'x', '5']]).toOption = some (.not ⟨0, 1, 0, 1⟩) := by decide
theorem witness_OperandLiteralIsStrict :
    (parseLiteral ['0', 'x', 'F']).toOption = some 'F' ∧ (parseLiteral ['0', 'x', 'g']).toOption = none := by decide
theorem witness_FlagIsCheckedFirst :
    (∀ c, (['-', 'a', 'd'] : Text) ≠ ['-', c]) ∧ ('n' ≠ 'a' ∧ 'n' ≠ 'd') ∧
    (Config.FlagPolicy.reject = .legacyNot ∨ 'd' = 'a' ∨ 'd' = 'd') := by
  refine ⟨fun c => by simp, by decide, by decide⟩
theorem witness_CountIsCheckedBeforeLiterals :
    ([] : List Text).length < 2 ∧ ([['0']] : List Text).length < 2 ∧ ([] : List Text).length = 0 ∧
    2 < ([['0'], ['0'], ['0']] : List Text).length ∧ ('n' ≠ 'a' ∧ 'n' ≠ 'd') ∧ 1 < ([['0'], ['0']] : List Text).length := by
  decide
theorem witness_LiteralsAreCheckedInOrder :
    admittedLiteral ['0', 'x', 'G'] = false ∧ admittedLiteral ['0', 'x', '1'] = true ∧ admittedLiteral ['3'] = false ∧
    ('a' = 'a' ∨ 'a' = 'd') ∧ ('q' ≠ 'a' ∧ 'q' ≠ 'd') ∧ Config.defaults.flag = .legacyNot := by
  decide
theorem witness_LinePrintedForCommandsOnly :
    (decodeCommand Config.defaults [['-', 'd'], ['0', 'x', '5']]).toOption = some (.not ⟨0, 1, 0, 1⟩) ∧
    (decodePorts Config.defaults 0b01#2 ⟨0, 1, 0, 1⟩ ⟨1, 1, 1, 1⟩).toOption = some (.not ⟨0, 1, 0, 1⟩) ∧
    (decodeWord Config.defaults 0x150#10).toOption = some (.not ⟨0, 1, 0, 1⟩) := by decide
theorem witness_StepRunsTheDecodedInstruction :
    (worded 0x091).request = some (.word 0x091#10) ∧
    fetch (worded 0x091).policies (.word 0x091#10) = .ok (.add ⟨1, 0, 0, 1⟩ ⟨0, 0, 0, 1⟩) ∧
    (worded 0x300).request = some (.word 0x300#10) ∧
    fetch (worded 0x300).policies (.word 0x300#10) = .error (.reservedOpcode (.word 0x300#10)) :=
  ⟨rfl, rfl, rfl, rfl⟩
theorem witness_ReservedCodeByPolicy :
    otherPolicies.reservedOp = .not ∧ Config.defaults.reservedOp = .fault ∧ 0x300 ≤ (0x300#10).toNat ∧
    faultOfStep (State.reset.present (.ports 0b11#2 ⟨0, 0, 0, 0⟩ ⟨0, 0, 0, 0⟩)) = some (.reservedOpcode (.field 0b11#2)) := by
  decide
theorem witness_OutcomeDependsOnInputsOnly : usedBlock.policies = State.reset.policies ∧ usedBlock ≠ State.reset := by decide
theorem witness_StepIsIdempotent : ∃ t, step (worded 0x091) = .next t := ⟨_, rfl⟩
theorem witness_FaultDoesNotPersist :
    step (usedBlock.present (.word 0x300#10)) = .fault (.reservedOpcode (.word 0x300#10)) := rfl
theorem witness_StepKeepsCoherence : (worded 0x091).Coherent ∧ ∃ t, step (worded 0x091) = .next t :=
  ⟨⟨rfl, rfl, rfl, rfl, rfl⟩, _, rfl⟩

end Sys2Proof.Tests
end

section
/-! The numbers a Register stands for: the unsigned and the signed value, and the expansion of an integer
(spec/10_state.md rules R13, R14; spec/41_codec.md rule R70). -/

namespace Sys2Proof.Machine

/-- R11 in arithmetic: the normalised Bit, back as an integer, is the remainder by 2. -/
@[simp] theorem bitInt_normBit (v : Int) : bitInt (normBit v) = v % 2 := by
  unfold normBit
  split
  · simp [bitInt, *]
  · simp only [bitInt, Fin.val_one, Nat.cast_one]
    omega

/-- R13 on integers, in the form in which the gates read a wire. -/
theorem val_eq_bitInt (r : Register) :
    (val r : Int) = 8 * bitInt r.b0 + 4 * bitInt r.b1 + 2 * bitInt r.b2 + bitInt r.b3 := by
  simp [val, bitInt]

/-- R70: four binary digits hold an integer modulo 16. -/
theorem val_expand (n : Int) : (val (expand n) : Int) = n % 16 := by
  simp only [val_eq_bitInt, expand, registerOfInts, bitInt_normBit]
  omega

/-- In 0..15 the codec's policy has no say. -/
theorem decimalToBinary_of_mem_range (p : Config.CodecRangePolicy) {n : Int} (h : 0 ≤ n ∧ n ≤ 15) :
    decimalToBinary p n = .ok (expand n) :=
  if_pos h

/-- The number of a Register's field determines the Register, since the field does. -/
theorem val_injective : Function.Injective val :=
  Function.LeftInverse.injective (g := fun n => regOfField (BitVec.ofNat 4 n)) regOfField_fieldOfReg

/-- R14 by the unsigned value: the upper half of 0..15 reads as negative. -/
theorem sval_eq_ite (r : Register) : sval r = if 8 ≤ val r then (val r : Int) - 16 else (val r : Int) := by
  unfold sval
  by_cases h : r.b0 = 0
  · have hlow : ¬8 ≤ val r := by simp [← b0_eq_one_iff, h]
    rw [if_pos h, if_neg hlow]
  · have hhigh : 8 ≤ val r := (b0_eq_one_iff r).mp (Fin.eq_one_of_ne_zero _ h)
    rw [if_neg h, if_pos hhigh]

/-- The two's-complement reading of the field is R14's. -/
theorem fieldOfReg_toInt (r : Register) : (fieldOfReg r).toInt = sval r := by
  rw [BitVec.toInt_eq_toNat_cond, fieldOfReg_toNat, sval_eq_ite]
  split <;> split <;> omega

/-- Settles O4: `val` is injective because a Register is recovered from its field, and `expand` is a right inverse of it on
0..15. -/
theorem registerValueIsBijection : Obligations.RegisterValueIsBijection := by
  refine ⟨fun r => ⟨rfl, Nat.le_of_lt_succ (val_lt r), rfl⟩, fun _ _ h => val_injective h, fun p n hn => ?_⟩
  refine ⟨expand n, decimalToBinary_of_mem_range p (by omega), ?_⟩
  have hval := val_expand n
  omega

/-- Settles O5: the range follows from the half of 0..15 that the value is in. -/
theorem signedValueIsSignExtension : Obligations.SignedValueIsSignExtension := by
  intro r
  have hlt := val_lt r
  have hs := sval_eq_ite r
  refine ⟨rfl, ?_, ?_, (fieldOfReg_toInt r).symm⟩ <;> split at hs <;> omega

end Sys2Proof.Machine
end

section
/-! What one invocation takes from the state it begins in: the request and the model arguments, and nothing else
(spec/10_state.md rules R16, R25). -/

namespace Sys2Proof.Machine

/-- R16, R25: beginning an invocation forgets all but the request and the model arguments. -/
theorem State.beginInvocation_congr {s s' : State} (hq : s.request = s'.request) (hp : s.policies = s'.policies) :
    s.beginInvocation = s'.beginInvocation :=
  State.eq_of_fields rfl rfl rfl rfl rfl rfl hq hp

/-- Each meaning begins the invocation itself, so one that has just begun is no different. -/
theorem exec_beginInvocation (i : Instr) (s : State) : exec i s.beginInvocation = exec i s := by
  cases i <;> rfl

/-- Every instruction completes with outputs, and leaves the request and the model arguments as they are. -/
theorem exec_completes (i : Instr) (s : State) :
    ∃ t o, exec i s = .next t ∧ t.outputs = some o ∧ t.request = s.request ∧ t.policies = s.policies := by
  cases i with
  | add a b => exact ⟨_, _, execAdd_eq a b s, rfl, rfl, rfl⟩
  | not a => exact ⟨_, _, execNot_eq a s, rfl, rfl, rfl⟩
  | and a b => exact ⟨_, _, execAnd_eq a b s, rfl, rfl, rfl⟩

theorem exec_congr {s s' : State} (hq : s.request = s'.request) (hp : s.policies = s'.policies) (i : Instr) :
    exec i s = exec i s' := by
  rw [← exec_beginInvocation i s, State.beginInvocation_congr hq hp, exec_beginInvocation]

/-- R25: a step depends on the request and the model arguments alone. -/
theorem step_congr {s s' : State} (hq : s.request = s'.request) (hp : s.policies = s'.policies) :
    step s = step s' := by
  simp only [step, hq, hp, exec_congr hq hp]

theorem step_of_fetch_error {s : State} {q : Request} {f : Fault} (hq : s.request = some q)
    (hf : fetch s.policies q = .error f) : step s = .fault f := by
  simp only [step, hq, hf, raise]

theorem step_of_fetch_ok {s t : State} {q : Request} {i : Instr} (hq : s.request = some q)
    (hf : fetch s.policies q = .ok i) (ht : exec i s = .next t) : step s = .next (t.deliver q i.opcode) := by
  simp only [step, hq, hf, ht]

/-- R25: a presented invocation ends in a next state with outputs or in a fault. -/
theorem step_present_outputs_or_fault (s : State) (q : Request) :
    (∃ t o, step (s.present q) = .next t ∧ t.outputs = some o) ∨ ∃ f, step (s.present q) = .fault f := by
  cases hf : fetch s.policies q with
  | error f => exact .inr ⟨f, step_of_fetch_error rfl hf⟩
  | ok i =>
    obtain ⟨t, o, ht, ho, -, -⟩ := exec_completes i (s.present q)
    exact .inl ⟨_, o, step_of_fetch_ok rfl hf ht, by simpa using ho⟩

/-- R6: no step changes the model arguments. -/
theorem step_policies {s t : State} (h : step s = .next t) : t.policies = s.policies := by
  obtain ⟨q, i, u, -, -, hu, rfl⟩ := step_next_cases h
  obtain ⟨u', o, hu', -, -, hp⟩ := exec_completes i s
  cases hu.symm.trans hu'
  simpa using hp

/-- Whatever an invocation ends in, the next one begins under the same model arguments. -/
theorem stateAfter_step_policies (s : State) (q : Request) :
    (stateAfter s (step (s.present q))).policies = s.policies := by
  cases h : step (s.present q) with
  | next t => exact (step_policies h).trans (s.present_policies q)
  | fault f => rfl
  | refused r => rfl

/-- R25: an invocation ends as it would on a block just reset, with the same model arguments. -/
theorem step_present_eq_reset (s : State) (q : Request) :
    step (s.present q) = step ((State.reset.present q).withPolicies s.policies) :=
  step_congr rfl rfl

theorem perform_eq_map_reset (s : State) (qs : List Request) :
    perform s qs = qs.map (fun q => step ((State.reset.present q).withPolicies s.policies)) := by
  induction qs generalizing s with
  | nil => rfl
  | cons q qs ih =>
    rw [perform, ih, stateAfter_step_policies, step_present_eq_reset, List.map_cons]

/-- Settles O52: a step depends on the request and the model arguments alone, and along the list these arguments stay. -/
theorem invocationsAreIndependent : Obligations.InvocationsAreIndependent :=
  ⟨step_present_outputs_or_fault, perform_eq_map_reset⟩

end Sys2Proof.Machine
end

section
/-! Control codes, and the line that a driver prints for a result (spec/30_encoding.md rules R41, R52;
spec/41_codec.md rule R76; spec/45_negator.md rule R101; spec/46_alu_operations.md rule R115). -/

namespace Sys2Proof

/-- R41: the control field of an operation selects it. -/
@[simp] theorem decodeControl_code (o : Opcode) : decodeControl o.code = some o := by
  cases o <;> rfl

/-- R41: the codes are the only control fields that select an operation. -/
theorem decodeControl_eq_some_iff (op : BitVec 2) (o : Opcode) : decodeControl op = some o ↔ op = o.code := by
  constructor
  · intro h
    rcases Machine.control_cases op with rfl | rfl | rfl | rfl <;> cases h <;> rfl
  · rintro rfl
    exact decodeControl_code o

/-- Settles O21: the codes are as defined, and the decoder inverts them on each of the four control fields. -/
theorem controlCodes : Obligations.ControlCodes :=
  ⟨rfl, rfl, rfl, decodeControl_eq_some_iff, rfl⟩

end Sys2Proof

namespace Sys2Proof.Machine

/-- R76: the value of a Register is in the range of `hexDigit`, so the digit is there. -/
theorem hexDigit_val (r : Register) : hexDigit (val r) = .ok (regToHex r) := by
  have hlt := val_lt r
  exact dif_pos ⟨by omega, by omega⟩

/-- R101: the negator subtracts from 16, modulo 16. -/
theorem val_negate : ∀ r : Register, val (negate r) = (16 - val r) % 16 :=
  forall_register (by decide)

/-- R115: the magnitude that the negator leaves for a negative result, with the sign put back, is the signed value. -/
theorem annotation_add (r : Register) (h : Char) :
    annotation .add ⟨r, h, signBit r, if signBit r = 1 then negate r else Register.zero⟩ = some (sval r) := by
  have hlt := val_lt r
  have hneg := val_negate r
  by_cases hs : r.b0 = 1
  · have hhigh := (b0_eq_one_iff r).mp hs
    simp only [annotation, signBit, hs, if_true, sval_eq_ite, if_pos hhigh, Option.some.injEq]
    omega
  · have hlow := (b0_eq_one_iff r).not.mp hs
    simp only [annotation, signBit, hs, if_false, sval_eq_ite, if_neg hlow]

/-- R52: the line of a result with a decimal annotation. -/
theorem outputLine_of_annotation_some {op : Opcode} {o : Outputs} {d : Int} (h : annotation op o = some d) :
    outputLine op o = "-> 0x".toList ++ [o.h] ++ " = ".toList ++ numeral d ++ "\n".toList := by
  simp [outputLine, h]

/-- R52: the line of a result without one. -/
theorem outputLine_of_annotation_none {op : Opcode} {o : Outputs} (h : annotation op o = none) :
    outputLine op o = "-> 0x".toList ++ [o.h] ++ "\n".toList := by
  simp [outputLine, h]

/-- Settles O34: the line follows the annotation, which is the signed value for ADD, the unsigned one for AND, and absent
for NOT. -/
theorem outputLineShape : Obligations.OutputLineShape := by
  intro s i
  cases i with
  | add a b =>
    exact ⟨_, _, execAdd_eq a b s, rfl, hexDigit_val _, outputLine_of_annotation_some (annotation_add _ _)⟩
  | not a => exact ⟨_, _, execNot_eq a s, rfl, hexDigit_val _, outputLine_of_annotation_none rfl⟩
  | and a b => exact ⟨_, _, execAnd_eq a b s, rfl, hexDigit_val _, outputLine_of_annotation_some rfl⟩

end Sys2Proof.Machine
end

section
/-! The truth tables of the gates, one row set per output value (spec/40_gates.md rules R61 to R64). A gate's 1 rows are its
own rule; its 0 rows are the remaining ones, because a Bit has no third value (R10). -/

namespace Sys2Proof.Machine

/-- R10: a Bit that is not 1 is 0. -/
theorem bit_eq_zero_iff_ne_one (b : Bit) : b = 0 ↔ b ≠ 1 := by
  revert b; decide

/-- R61: the row of AND that gives 1. -/
@[simp] theorem gateAnd_eq_one_iff (a b : Int) : gateAnd a b = 1 ↔ normBit a = 1 ∧ normBit b = 1 :=
  one_ne_zero.ite_eq_left_iff

/-- R62: the rows of OR that give 1. -/
@[simp] theorem gateOr_eq_one_iff (a b : Int) : gateOr a b = 1 ↔ normBit a = 1 ∨ normBit b = 1 :=
  one_ne_zero.ite_eq_left_iff

/-- R63: the rows of XOR that give 1. -/
@[simp] theorem gateXor_eq_one_iff (a b : Int) : gateXor a b = 1 ↔ normBit a ≠ normBit b :=
  one_ne_zero.ite_eq_left_iff

/-- R64: the row of NOT that gives 1. -/
@[simp] theorem gateNot_eq_one_iff (a : Int) : gateNot a = 1 ↔ normBit a = 0 :=
  one_ne_zero.ite_eq_left_iff

/-- R61: the rows of AND that give 0. -/
@[simp] theorem gateAnd_eq_zero_iff (a b : Int) : gateAnd a b = 0 ↔ normBit a = 0 ∨ normBit b = 0 := by
  simp only [bit_eq_zero_iff_ne_one, ne_eq, gateAnd_eq_one_iff, not_and_or]

/-- R62: the row of OR that gives 0. -/
@[simp] theorem gateOr_eq_zero_iff (a b : Int) : gateOr a b = 0 ↔ normBit a = 0 ∧ normBit b = 0 := by
  simp only [bit_eq_zero_iff_ne_one, ne_eq, gateOr_eq_one_iff, not_or]

/-- R63: the rows of XOR that give 0. -/
@[simp] theorem gateXor_eq_zero_iff (a b : Int) : gateXor a b = 0 ↔ normBit a = normBit b := by
  rw [bit_eq_zero_iff_ne_one, ne_eq, gateXor_eq_one_iff, not_ne_iff]

/-- R64: the row of NOT that gives 0. -/
@[simp] theorem gateNot_eq_zero_iff (a : Int) : gateNot a = 0 ↔ normBit a = 1 := by
  rw [bit_eq_zero_iff_ne_one, ne_eq, gateNot_eq_one_iff, bit_eq_zero_iff_ne_one, not_ne_iff]

/-- Settles O2: the rows of the four tables, gate by gate, those that give 1 and those that give 0. -/
theorem gatesMatchTruthTables : Obligations.GatesMatchTruthTables := fun a b =>
  ⟨gateAnd_eq_one_iff a b, gateAnd_eq_zero_iff a b, gateOr_eq_one_iff a b, gateOr_eq_zero_iff a b,
    gateXor_eq_one_iff a b, gateXor_eq_zero_iff a b, gateNot_eq_one_iff a, gateNot_eq_zero_iff a⟩

end Sys2Proof.Machine
end

section
/-! The integer to hex character function, in range and out of it (spec/41_codec.md rule R72). -/

namespace Sys2Proof.Machine

/-- R72: the alphabet as the text that the rule prints. -/
theorem hexAlpha_eq_toList : hexAlpha = "0123456789ABCDEF".toList := rfl

/-- R72: in 0..15 the digit is the alphabet's character at that position. -/
theorem hexDigit_of_mem_range {n : Int} (h : 0 ≤ n ∧ n ≤ 15) :
    ∃ c, hexDigit n = .ok c ∧ hexAlpha[n.toNat]? = some c :=
  ⟨_, dif_pos h, List.getElem?_eq_getElem _⟩

/-- R72: outside 0..15 there is no digit, and the fault names the integer. -/
theorem hexDigit_of_not_mem_range {n : Int} (h : ¬(0 ≤ n ∧ n ≤ 15)) : hexDigit n = .error (.rangeError n) :=
  dif_neg h

/-- Settles O8: the two branches of `hexDigit`, with the alphabet spelled out. -/
theorem hexDigitOnlyInRange : Obligations.HexDigitOnlyInRange := by
  refine ⟨fun n hn => ?_, fun n hn => hexDigit_of_not_mem_range hn⟩
  rw [← hexAlpha_eq_toList]
  exact hexDigit_of_mem_range hn

end Sys2Proof.Machine
end

section
/-! The ripple-carry adder cell by cell: the written loop runs the same cells as `add`, and the corner cases of the rule for
every Register follow from what one cell does (spec/42_adder.md rules R80 to R83). -/

namespace Sys2Proof.Machine

/-- R80, R82: one turn of the loop is one full-adder cell: its sum bit is kept and its carry goes on. -/
theorem addLoop_cons (a b : Register) (i : Fin 4) (is : List (Fin 4)) (cin : Bit) (s : List Bit) :
    addLoop a b (i :: is) cin s =
      addLoop a b is (fullAdder (a.bit i) (b.bit i) cin).cout ((fullAdder (a.bit i) (b.bit i) cin).s :: s) := rfl

/-- R81, R82: the loop over the four positions drops its last carry and leaves the four sum bits of `add`. -/
theorem addLoop_positions (a b : Register) :
    addLoop a b [3, 2, 1, 0] 0 [] = [(add a b).bit 0, (add a b).bit 1, (add a b).bit 2, (add a b).bit 3] := by
  simp only [addLoop_cons]
  rfl

/-- R80: a cell fed 0 and no carry passes its bit on, without a carry. -/
theorem fullAdder_zero_zero (x : Bit) : (fullAdder x 0 0).s = x ∧ (fullAdder x 0 0).cout = 0 := by
  revert x; decide

/-- R80: a cell fed the same bit twice puts out its carry in, and carries that bit on. -/
theorem fullAdder_self (x cin : Bit) : (fullAdder x x cin).s = cin ∧ (fullAdder x x cin).cout = x := by
  revert x cin; decide

/-- R82: with `0000` as second operand no cell carries and each passes its bit on. -/
theorem add_zero (r : Register) : add r Register.zero = r := by
  simp only [add, adderCells, Register.zero, fullAdder_zero_zero]

/-- R82: doubling: the sum bit of each position is the bit of the position below, and the top bit is the dropped carry. -/
theorem add_self (r : Register) : add r r = ⟨r.bit 1, r.bit 2, r.bit 3, 0⟩ := by
  simp only [add, adderCells, fullAdder_self]
  rfl

/-- Settles O13: the loop and the two laws for every Register by the cells, the fixed cases by evaluation. -/
theorem adderLoopAgreesWithCells : Obligations.AdderLoopAgreesWithCells :=
  ⟨addLoop_positions, fun r => ⟨add_zero r, add_self r⟩, by decide⟩

/-- Settles O14: the state that ADD leaves mentions its operands outside `A` and `B` only through their sum. -/
theorem overflowIsNotObservable : Obligations.OverflowIsNotObservable := by
  intro s a b a' b' hsum
  refine ⟨_, _, _, execAdd_eq a b s, execAdd_eq a' b' s, rfl, ?_, hsum, ?_, rfl⟩
  · simp only [hsum]
  · simp only [hsum]

end Sys2Proof.Machine
end

section
/-! The AND unit and the NOT unit as four independent lanes. A law of the gate on one Bit is a law of the unit on every
Register, because each result bit is one gate (spec/43_and_unit.md rule R90, spec/44_not_unit.md rule R95). -/

namespace Sys2Proof.Machine

/-- R7: a Register is its four Bits. -/
theorem register_eq_of_bit_eq {r r' : Register} (h : ∀ i, r.bit i = r'.bit i) : r = r' := by
  cases r
  cases r'
  rw [Register.mk.injEq]
  exact ⟨h 0, h 1, h 2, h 3⟩

/-- R90: order-preserving and no carry propagation. -/
@[simp] theorem bit_bitwiseAnd (a b : Register) (i : Fin 4) :
    (bitwiseAnd a b).bit i = gateAnd (bitInt (a.bit i)) (bitInt (b.bit i)) := by
  fin_cases i <;> rfl

/-- R95: order-preserving. -/
@[simp] theorem bit_bitwiseNot (a : Register) (i : Fin 4) :
    (bitwiseNot a).bit i = gateNot (bitInt (a.bit i)) := by
  fin_cases i <;> rfl

/-- R7: a Register of four equal Bits, such as `0000` or `1111`, has that Bit on every lane. -/
@[simp] theorem bit_const (x : Bit) (i : Fin 4) : (⟨x, x, x, x⟩ : Register).bit i = x := by
  fin_cases i <;> rfl

/-- R61 on one wire: 0 closes the gate. -/
@[simp] theorem gateAnd_bitInt_zero (x : Bit) : gateAnd (bitInt x) (bitInt 0) = 0 := by
  revert x; decide

/-- R61 on one wire: 1 opens the gate. -/
@[simp] theorem gateAnd_bitInt_one (x : Bit) : gateAnd (bitInt x) (bitInt 1) = x := by
  revert x; decide

/-- R61 on one wire fed to both inputs. -/
@[simp] theorem gateAnd_bitInt_self (x : Bit) : gateAnd (bitInt x) (bitInt x) = x := by
  revert x; decide

/-- R64 on one wire: two inverters in a row. -/
@[simp] theorem gateNot_bitInt_gateNot (x : Bit) : gateNot (bitInt (gateNot (bitInt x))) = x := by
  revert x; decide

theorem bitwiseAnd_zeros (a : Register) : bitwiseAnd a ⟨0, 0, 0, 0⟩ = ⟨0, 0, 0, 0⟩ :=
  register_eq_of_bit_eq fun i => by simp only [bit_bitwiseAnd, bit_const, gateAnd_bitInt_zero]

theorem bitwiseAnd_ones (a : Register) : bitwiseAnd a ⟨1, 1, 1, 1⟩ = a :=
  register_eq_of_bit_eq fun i => by simp only [bit_bitwiseAnd, bit_const, gateAnd_bitInt_one]

theorem bitwiseAnd_self (a : Register) : bitwiseAnd a a = a :=
  register_eq_of_bit_eq fun i => by simp only [bit_bitwiseAnd, gateAnd_bitInt_self]

theorem bitwiseNot_bitwiseNot (a : Register) : bitwiseNot (bitwiseNot a) = a :=
  register_eq_of_bit_eq fun i => by simp only [bit_bitwiseNot, gateNot_bitInt_gateNot]

/-- Settles O18: each lane is one gate, the laws hold because they hold on every lane, and the fixed cases evaluate. -/
theorem unitLanesAreIndependent : Obligations.UnitLanesAreIndependent :=
  ⟨fun a b i => ⟨bit_bitwiseAnd a b i, bit_bitwiseNot a i⟩,
    fun a => ⟨bitwiseAnd_zeros a, bitwiseAnd_ones a, bitwiseAnd_self a, bitwiseNot_bitwiseNot a⟩, by decide⟩

end Sys2Proof.Machine
end

section
/-! The negator works on a copy: each meaning leaves the unit's result in `R`, and only ADD lets the sign bit of `R` choose
what stands in `S` (spec/45_negator.md rule R102). -/

namespace Sys2Proof.Machine

/-- R7, R114: the sign wire of a Register is its bit at source index 0. -/
theorem signBit_eq_bit_zero (r : Register) : signBit r = r.bit 0 := rfl

/-- Settles O30: the closed form of each meaning; for ADD the bit at index 0 is the condition under which `S` is written. -/
theorem negatorWorksOnACopy : Obligations.NegatorWorksOnACopy := by
  intro i s
  cases i with
  | add a b =>
    refine ⟨_, _, execAdd_eq a b s, rfl, rfl, rfl, rfl, rfl, rfl, rfl, fun hneg => ?_, fun hpos => ?_⟩
    · exact if_pos ((signBit_eq_bit_zero _).trans hneg)
    · rw [bit_eq_zero_iff_ne_one, ← signBit_eq_bit_zero] at hpos
      exact if_neg hpos
  | and a b => exact ⟨_, _, execAnd_eq a b s, rfl, rfl, rfl, rfl, rfl, rfl, rfl, rfl⟩
  | not a => exact ⟨_, _, execNot_eq a s, rfl, rfl, rfl, rfl, rfl, rfl, rfl⟩

end Sys2Proof.Machine
end

section
/-! The function `invoke` and a step with the ports select by the same control field: what `invoke` answers for each code,
and that the step's decoder and meaning answer it too (spec/46_alu_operations.md rules R110 to R113). -/

namespace Sys2Proof.Machine

/-- R111: `invoke` on the code of ADD. -/
theorem invoke_add (p : Config.ReservedOpPolicy) (a b : Register) :
    invoke p 0b00#2 a b = .ok (outputsOf (add a b) (signBit (add a b))
      (if signBit (add a b) = 1 then negate (add a b) else Register.zero)) := rfl

/-- R113: `invoke` on the code of NOT. -/
theorem invoke_not (p : Config.ReservedOpPolicy) (a b : Register) :
    invoke p 0b01#2 a b = .ok (outputsOf (bitwiseNot a) 0 Register.zero) := rfl

/-- R112: `invoke` on the code of AND. -/
theorem invoke_and (p : Config.ReservedOpPolicy) (a b : Register) :
    invoke p 0b10#2 a b = .ok (outputsOf (bitwiseAnd a b) 0 Register.zero) := rfl

/-- R42: `invoke` on the reserved code, where that is a fault. -/
theorem invoke_reserved_fault (a b : Register) :
    invoke .fault 0b11#2 a b = .error (.reservedOpcode (.field 0b11#2)) := rfl

/-- R42: `invoke` on the reserved code, where that is NOT. -/
theorem invoke_reserved_not (a b : Register) :
    invoke .not 0b11#2 a b = .ok (outputsOf (bitwiseNot a) 0 Register.zero) := rfl

/-- Settles O46: for each control code, and for the reserved one under each policy, the decoder selects the instruction
whose meaning drives the outputs of `invoke`, or refuses with its fault. -/
theorem invokeAgreesWithStep : Obligations.InvokeAgreesWithStep := by
  intro s op a b
  obtain ⟨rfl, hadd⟩ | ⟨rfl, hnot⟩ | ⟨rfl, hand⟩ | ⟨rfl, hp, hfault⟩ | ⟨rfl, hp, hnot⟩ :=
    select_cases s.policies (.field op) op a b
  · rw [invoke_add]
    exact ⟨_, step_of_fetch_ok rfl hadd (execAdd_eq a b _), rfl⟩
  · rw [invoke_not]
    exact ⟨_, step_of_fetch_ok rfl hnot (execNot_eq a _), rfl⟩
  · rw [invoke_and]
    exact ⟨_, step_of_fetch_ok rfl hand (execAnd_eq a b _), rfl⟩
  · rw [hp, invoke_reserved_fault]
    exact step_of_fetch_error rfl hfault
  · rw [hp, invoke_reserved_not]
    exact ⟨_, step_of_fetch_ok rfl hnot (execNot_eq a _), rfl⟩

end Sys2Proof.Machine
end

section
/-! The operation word: it is its three fields packed, so what a word decodes to is what its fields select, and which
words are an instruction's is a matter of its fields (spec/30_encoding.md rules R41 to R45, R55). -/

namespace Sys2Proof

open Machine

/-- R41: the code of ADD selects it, under every policy. -/
theorem select_add (p : Config.Policies) (info : ReservedInfo) (a b : Register) :
    select p info 0b00#2 a b = .ok (.add a b) := rfl

/-- R41: the code of NOT selects it, and the second operand falls away (R45). -/
theorem select_not (p : Config.Policies) (info : ReservedInfo) (a b : Register) :
    select p info 0b01#2 a b = .ok (.not a) := rfl

/-- R41: the code of AND selects it, under every policy. -/
theorem select_and (p : Config.Policies) (info : ReservedInfo) (a b : Register) :
    select p info 0b10#2 a b = .ok (.and a b) := rfl

/-- R55: a packed word decodes to what its control field selects on its operands. -/
theorem decodeWord_packWord (p : Config.Policies) (op : BitVec 2) (a b : Register) :
    decodeWord p (packWord op a b) = select p (.word (packWord op a b)) op a b := by
  simp only [decodeWord, opField_packWord, aField_packWord, bField_packWord, regOfField_fieldOfReg]

/-- Settles O23: the word of an instruction is packed from its operation's code and its operands, and the decoder reads
these back. -/
theorem decodeOfEncode : Obligations.DecodeOfEncode := by
  intro p i
  cases i with
  | add a b => exact (decodeWord_packWord p _ a b).trans (select_add p _ a b)
  | not a => exact (decodeWord_packWord p _ a _).trans (select_not p _ a _)
  | and a b => exact (decodeWord_packWord p _ a b).trans (select_and p _ a b)

/-- R43: a word is its three fields in order. -/
theorem packWord_fields (w : BitVec 10) :
    packWord (opField w) (regOfField (aField w)) (regOfField (bField w)) = w := by
  simp only [packWord, fieldOfReg_regOfField, opField, aField, bField]
  rw [BitVec.extractLsb'_append_extractLsb'_eq_extractLsb' (start₂ := 8) (start₁ := 4) rfl,
    BitVec.extractLsb'_append_extractLsb'_eq_extractLsb' (start₂ := 4) (start₁ := 0) rfl]
  exact BitVec.extractLsb'_eq_self

/-- R43: every word is packed from a control field and two operands. -/
theorem exists_packWord_eq (w : BitVec 10) : ∃ op a b, packWord op a b = w :=
  ⟨_, _, _, packWord_fields w⟩

/-- R43: the number of a packed word. -/
theorem packWord_toNat (op : BitVec 2) (a b : Register) :
    (packWord op a b).toNat = 256 * op.toNat + 16 * val a + val b := by
  have ha := val_lt a
  have hb := val_lt b
  simp only [packWord, BitVec.toNat_append, fieldOfReg_toNat]
  rw [← Nat.shiftLeft_add_eq_or_of_lt (b := val a) (by omega),
    ← Nat.shiftLeft_add_eq_or_of_lt (b := val b) (by omega)]
  simp only [Nat.shiftLeft_eq]
  omega

/-- R42, R45: canonicity of a packed word by its fields. -/
theorem canonicalWord_packWord (op : BitVec 2) (a b : Register) :
    canonicalWord (packWord op a b) = true ↔ op ≠ 0b11#2 ∧ (op = 0b01#2 → b = Register.zero) := by
  have hb : fieldOfReg b = 0#4 ↔ b = Register.zero := by
    revert b; exact forall_register (by decide)
  simp only [canonicalWord, opField_packWord, bField_packWord, Bool.and_eq_true, Bool.or_eq_true, bne_iff_ne,
    beq_iff_eq, hb, ← imp_iff_not_or]

/-- R45: the word of an instruction is canonical. -/
theorem canonicalWord_encode (i : Instr) : canonicalWord (encode i) = true := by
  cases i <;> exact (canonicalWord_packWord _ _ _).mpr (by simp [Opcode.code])

/-- Settles O24: a canonical word is packed from a code that selects an operation, whose word it is. -/
theorem encodeOfDecodeOnCanonicalWords : Obligations.EncodeOfDecodeOnCanonicalWords := by
  refine ⟨fun p w hw => ?_, ?_⟩
  · obtain ⟨op, a, b, rfl⟩ := exists_packWord_eq w
    obtain ⟨hop, hb⟩ := (canonicalWord_packWord op a b).mp hw
    simp only [decodeWord_packWord]
    rcases control_cases op with rfl | rfl | rfl | rfl
    · exact ⟨.add a b, select_add p _ a b, rfl⟩
    · exact ⟨.not a, select_not p _ a b, by rw [hb rfl]; rfl⟩
    · exact ⟨.and a b, select_and p _ a b, rfl⟩
    · exact absurd rfl hop
  · rintro _ ⟨i, rfl⟩
    exact canonicalWord_encode i

/-- Settles O25: the number of a word is 256 times its control field and less than 256 more. -/
theorem everyWordDecodes : Obligations.EveryWordDecodes := by
  intro p w
  obtain ⟨op, a, b, rfl⟩ := exists_packWord_eq w
  have ha := val_lt a
  have hb := val_lt b
  rw [decodeWord_packWord]
  have hsel := select_cases p (.word (packWord op a b)) op a b
  generalize hn : (packWord op a b).toNat = n
  rw [packWord_toNat] at hn
  refine ⟨a, b, by omega, by omega, ?_⟩
  obtain ⟨rfl, h⟩ | ⟨rfl, h⟩ | ⟨rfl, h⟩ | ⟨rfl, hp, h⟩ | ⟨rfl, hp, h⟩ := hsel <;>
    rw [h] <;> rw [BitVec.toNat_ofNat] at hn
  · rw [if_pos (by omega)]
  · rw [if_neg (by omega), if_pos (by omega)]
  · rw [if_neg (by omega), if_neg (by omega), if_pos (by omega)]
  · rw [if_neg (by omega), if_neg (by omega), if_neg (by omega), if_pos hp]
  · rw [if_neg (by omega), if_neg (by omega), if_neg (by omega), if_neg (by simp [hp])]

/-- R44: a Bit of a field on a wire. -/
theorem fieldBit_eq_one_iff (f : BitVec 4) (k : Nat) : fieldBit f k = 1 ↔ f.getLsbD k = true :=
  one_ne_zero.ite_eq_left_iff

/-- R44: a field's number is the value of its Register. -/
theorem val_regOfField (f : BitVec 4) : val (regOfField f) = f.toNat := by
  rw [← fieldOfReg_toNat, fieldOfReg_regOfField]

/-- Settles O22: bit `k` of a field is bit `k` above the field's lowest position in the word. -/
theorem wordBitsBecomeRegisterBits : Obligations.WordBitsBecomeRegisterBits := by
  intro w
  refine ⟨?_, ?_, ?_, ?_, ?_, ?_, ?_, ?_, val_regOfField _, val_regOfField _⟩ <;>
    simp [regOfField, fieldBit_eq_one_iff, aField, bField]

/-- Settles O26: four of the words are those of their instructions, and the fifth is a NOT with another second field. -/
theorem writtenOutWordsDecode : Obligations.WrittenOutWordsDecode := fun p =>
  ⟨decodeOfEncode p (.add ⟨1, 0, 0, 1⟩ ⟨0, 0, 0, 1⟩), decodeOfEncode p (.add ⟨0, 0, 1, 1⟩ ⟨0, 1, 0, 0⟩),
    decodeOfEncode p (.not ⟨0, 1, 0, 1⟩), decodeWord_packWord p 0b01#2 ⟨0, 1, 0, 1⟩ ⟨1, 0, 0, 1⟩,
    decodeOfEncode p (.and ⟨1, 1, 0, 0⟩ ⟨1, 0, 1, 0⟩)⟩

end Sys2Proof
end

section
/-! Normalisation and the gates in arithmetic: a gate sees its inputs through `norm` only, so each law is a law of Bits
(spec/10_state.md rule R11, spec/40_gates.md rule R66). -/

namespace Sys2Proof.Machine

/-- Settles O1: the remainder by 2 as a Bit, and a Bit is its own remainder. -/
theorem normIsLeastSignificantBit : Obligations.NormIsLeastSignificantBit :=
  ⟨bitInt_normBit, normBit_bitInt⟩

theorem gateAnd_comm (a b : Int) : gateAnd a b = gateAnd b a := by
  simp only [gateAnd, and_comm]

theorem gateOr_comm (a b : Int) : gateOr a b = gateOr b a := by
  simp only [gateOr, or_comm]

theorem gateXor_comm (a b : Int) : gateXor a b = gateXor b a := by
  simp only [gateXor, ne_comm]

theorem gateAnd_normBit (a b : Int) : gateAnd (bitInt (normBit a)) (bitInt (normBit b)) = gateAnd a b := by
  simp only [gateAnd, normBit_bitInt]

theorem gateOr_normBit (a b : Int) : gateOr (bitInt (normBit a)) (bitInt (normBit b)) = gateOr a b := by
  simp only [gateOr, normBit_bitInt]

theorem gateXor_normBit (a b : Int) : gateXor (bitInt (normBit a)) (bitInt (normBit b)) = gateXor a b := by
  simp only [gateXor, normBit_bitInt]

theorem gateNot_normBit (a : Int) : gateNot (bitInt (normBit a)) = gateNot a := by
  simp only [gateNot, normBit_bitInt]

/-- R66 on two wires: the conjunction is the product. -/
theorem bitInt_gateAnd_bitInt : ∀ x y : Bit, bitInt (gateAnd (bitInt x) (bitInt y)) = bitInt x * bitInt y := by
  decide

/-- R66 on two wires: the exclusive disjunction is the sum modulo 2. -/
theorem bitInt_gateXor_bitInt : ∀ x y : Bit, bitInt (gateXor (bitInt x) (bitInt y)) = (bitInt x + bitInt y) % 2 := by
  decide

/-- R66 on two wires: the disjunction is the sum less the product. -/
theorem bitInt_gateOr_bitInt :
    ∀ x y : Bit, bitInt (gateOr (bitInt x) (bitInt y)) = bitInt x + bitInt y - bitInt x * bitInt y := by
  decide

/-- R66 on one wire: the complement. -/
theorem bitInt_gateNot_bitInt : ∀ x : Bit, bitInt (gateNot (bitInt x)) = 1 - bitInt x := by
  decide

/-- Settles O3: the laws on wires, carried over to all integers by normalising the inputs first. -/
theorem gateAlgebra : Obligations.GateAlgebra := by
  intro a b
  have hnot : gateNot (bitInt (gateNot a)) = normBit a := by
    rw [← gateNot_normBit a, gateNot_bitInt_gateNot]
  have hand := bitInt_gateAnd_bitInt (normBit a) (normBit b)
  have hxor := bitInt_gateXor_bitInt (normBit a) (normBit b)
  have hor := bitInt_gateOr_bitInt (normBit a) (normBit b)
  have hcompl := bitInt_gateNot_bitInt (normBit a)
  rw [gateAnd_normBit] at hand
  rw [gateXor_normBit] at hxor
  rw [gateOr_normBit] at hor
  rw [gateNot_normBit] at hcompl
  exact ⟨gateAnd_comm a b, gateOr_comm a b, gateXor_comm a b, hnot, hand, hxor, hor, hcompl,
    gateAnd_normBit a b, gateOr_normBit a b, gateXor_normBit a b, gateNot_normBit a⟩

end Sys2Proof.Machine
end

section
/-! The codec: integers, Registers and hex characters (spec/41_codec.md rules R70 to R76). -/

namespace Sys2Proof.Machine

/-- R70, D6: outside 0..15 the policy `mask` reduces modulo 16. -/
theorem decimalToBinary_mask_of_not_mem_range {n : Int} (h : ¬(0 ≤ n ∧ n ≤ 15)) :
    decimalToBinary .mask n = .ok (expand (n % 16)) :=
  if_neg h

/-- R70, D6: outside 0..15 the policy `fault` faults. -/
theorem decimalToBinary_fault_of_not_mem_range {n : Int} (h : ¬(0 ≤ n ∧ n ≤ 15)) :
    decimalToBinary .fault n = .error (.rangeError n) :=
  if_neg h

/-- Settles O6: each Bit of the expansion is a normalised quotient, and a remainder by 16 is back in the range. -/
theorem decimalToBinaryByPolicy : Obligations.DecimalToBinaryByPolicy := by
  refine fun n => ⟨fun hn p => ?_, decimalToBinary_fault_of_not_mem_range, fun hn => ?_⟩
  · exact ⟨expand n, decimalToBinary_of_mem_range p hn, bitInt_normBit _, bitInt_normBit _, bitInt_normBit _,
      bitInt_normBit _⟩
  · have hmod : 0 ≤ n % 16 ∧ n % 16 ≤ 15 := by omega
    rw [decimalToBinary_mask_of_not_mem_range hn, decimalToBinary_of_mem_range _ hmod]

/-- R70: in 0..15 the expansion has the value. -/
theorem val_expand_of_le {n : Nat} (h : n ≤ 15) : val (expand n) = n := by
  have hval := val_expand n
  omega

/-- R74: the expansion of a Register's value is the Register. -/
theorem expand_val (r : Register) : expand (val r) = r :=
  val_injective (val_expand_of_le (Nat.le_of_lt_succ (val_lt r)))

/-- R74: a Register's value is in the range, so that the codec gives the Register back under every policy. -/
theorem decimalToBinary_val (p : Config.CodecRangePolicy) (r : Register) : decimalToBinary p (val r) = .ok r := by
  have hlt := val_lt r
  rw [decimalToBinary_of_mem_range p (by omega), expand_val]

/-- Settles O7: `expand` and `val` are inverse on 0..15. -/
theorem decimalRoundTrip : Obligations.DecimalRoundTrip := by
  refine fun p => ⟨fun n hn => ?_, decimalToBinary_val p⟩
  rw [decimalToBinary_of_mem_range p (by omega)]
  exact congrArg Except.ok (val_expand_of_le hn)

/-- R72: no character stands twice in the alphabet. -/
theorem hexAlpha_nodup : hexAlpha.Nodup := by decide

/-- R73: a character's value is its position in the alphabet. -/
theorem hexCharToValue_eq_ok_iff (c : Char) (i : Nat) : hexCharToValue c = .ok i ↔ hexAlpha[i]? = some c := by
  have hfind : hexAlpha.findIdx? (fun d => d == c) = some i ↔ hexAlpha[i]? = some c := by
    rw [List.findIdx?_eq_some_iff_getElem, List.getElem?_eq_some_iff]
    refine exists_congr fun hi => ⟨fun h => beq_iff_eq.mp h.1, ?_⟩
    rintro rfl
    refine ⟨beq_self_eq_true _, fun j hj => ?_⟩
    rw [beq_iff_eq, hexAlpha_nodup.getElem_inj_iff]
    omega
  rw [← hfind]
  unfold hexCharToValue
  cases hexAlpha.findIdx? (fun d => d == c) <;> simp

/-- R73, D7: a character without a position has no value. -/
theorem hexCharToValue_of_not_mem {c : Char} (h : c ∉ hexAlpha) :
    hexCharToValue c = .error (.invalidHexLiteral (.character c)) := by
  have hnone : hexAlpha.findIdx? (fun d => d == c) = none := by
    rw [List.findIdx?_eq_none_iff]
    intro d hd
    exact beq_false_of_ne (fun hdc => h (hdc ▸ hd))
  simp only [hexCharToValue, hnone]

/-- Settles O9: the alphabet has no character twice, so that the first position found is the only one. -/
theorem hexCharToValueInvertsAlphabet : Obligations.HexCharToValueInvertsAlphabet :=
  ⟨hexCharToValue_eq_ok_iff, fun _ => hexCharToValue_of_not_mem⟩

/-- R72, R73: the digit at a position has that position as its value. -/
theorem hexDigit_eq_ok_iff (n : Nat) (c : Char) : hexDigit n = .ok c ↔ hexAlpha[n]? = some c := by
  by_cases h : 0 ≤ (n : Int) ∧ (n : Int) ≤ 15
  · obtain ⟨d, hdigit, hpos⟩ := hexDigit_of_mem_range h
    rw [hdigit, show hexAlpha[n]? = some d from hpos, Except.ok.injEq, Option.some.injEq]
  · have hlen : hexAlpha.length ≤ n := by rw [show hexAlpha.length = 16 from rfl]; omega
    rw [hexDigit_of_not_mem_range h, List.getElem?_eq_none hlen]
    simp

/-- Settles O10: both functions name the same pairs of a position and its character. -/
theorem hexRoundTrip : Obligations.HexRoundTrip := by
  refine ⟨fun n hn => ?_, fun c hc => ?_⟩
  · obtain ⟨c, hdigit, hpos⟩ := hexDigit_of_mem_range (n := n) (by omega)
    rw [hdigit]
    exact (hexCharToValue_eq_ok_iff c n).mpr hpos
  · obtain ⟨n, hpos⟩ := List.mem_iff_getElem?.mp hc
    rw [(hexCharToValue_eq_ok_iff c n).mpr hpos]
    exact (hexDigit_eq_ok_iff n c).mpr hpos

/-- Settles O11: the value of a Register is below 16. -/
theorem regToHexNeverFaults : Obligations.RegToHexNeverFaults := hexDigit_val

end Sys2Proof.Machine
end

section
/-! The arithmetic of the units. One full-adder cell adds three Bits, the chain of four adds modulo 16, and a Register
is determined by its value; so the laws of the units are laws of numbers (spec/42_adder.md rules R80, R84, R87;
spec/43_and_unit.md rule R91; spec/44_not_unit.md rule R96; spec/45_negator.md rule R101). -/

namespace Sys2Proof.Machine

/-- R80: sum bit and carry are the two binary digits of the number of inputs that are 1. -/
theorem fullAdder_sum : ∀ a b cin : Bit,
    2 * (fullAdder a b cin).cout.val + (fullAdder a b cin).s.val = a.val + b.val + cin.val := by
  decide

/-- Settles O12: the wires are the cell's equations, and its arithmetic is a table of eight rows. -/
theorem fullAdderCellAddsThreeBits : Obligations.FullAdderCellAddsThreeBits := fun a b cin =>
  ⟨rfl, rfl, rfl, rfl, rfl, fullAdder_sum a b cin⟩

/-- R84: with the dropped carry the sum is exact. Each cell's carry out is the next cell's carry in, so the carries
cancel. -/
theorem val_add_add_droppedCarry (a b : Register) :
    val (add a b) + 16 * (droppedCarry a b).val = val a + val b := by
  have h3 := fullAdder_sum a.b3 b.b3 0
  have h2 := fullAdder_sum a.b2 b.b2 (adderCells a b).c3.cout
  have h1 := fullAdder_sum a.b1 b.b1 (adderCells a b).c2.cout
  have h0 := fullAdder_sum a.b0 b.b0 (adderCells a b).c1.cout
  simp only [val, add, droppedCarry, adderCells, Fin.val_zero] at *
  omega

/-- R84: the adder adds modulo 16. -/
theorem val_add (a b : Register) : val (add a b) = (val a + val b) % 16 := by
  have hsum := val_add_add_droppedCarry a b
  have hlt := val_lt (add a b)
  omega

/-- R84: the dropped carry is the quotient. -/
theorem val_droppedCarry (a b : Register) : (droppedCarry a b).val = (val a + val b) / 16 := by
  have hsum := val_add_add_droppedCarry a b
  have hlt := val_lt (add a b)
  omega

/-- R14: the signed value is in -8..7. -/
theorem sval_mem_range (r : Register) : -8 ≤ sval r ∧ sval r ≤ 7 := by
  obtain ⟨-, hlow, hhigh, -⟩ := signedValueIsSignExtension r
  exact ⟨hlow, hhigh⟩

/-- R14: the two readings of a Register are congruent modulo 16. -/
theorem sval_emod_sixteen (r : Register) : sval r % 16 = val r := by
  have hlt := val_lt r
  rw [sval_eq_ite]
  split <;> omega

/-- Settles O15: the unsigned sum modulo 16, and both readings are congruent modulo 16. -/
theorem addIsSumModulo16 : Obligations.AddIsSumModulo16 := by
  intro a b
  obtain ⟨hlow, hhigh⟩ := sval_mem_range (add a b)
  have hval := val_add a b
  have ha := sval_emod_sixteen a
  have hb := sval_emod_sixteen b
  have hab := sval_emod_sixteen (add a b)
  exact ⟨hval, hlow, hhigh, by omega, val_droppedCarry a b⟩

theorem fullAdder_comm : ∀ a b cin : Bit, fullAdder a b cin = fullAdder b a cin := by
  decide

/-- R87: swapping the operands changes no wire of any cell. -/
theorem adderCells_comm (a b : Register) : adderCells a b = adderCells b a := by
  simp only [adderCells, fullAdder_comm a.b3, fullAdder_comm a.b2, fullAdder_comm a.b1, fullAdder_comm a.b0]

theorem add_comm_register (a b : Register) : add a b = add b a := by
  simp only [add, adderCells_comm a b]

theorem add_assoc_register (a b c : Register) : add (add a b) c = add a (add b c) := by
  apply val_injective
  simp only [val_add]
  omega

/-- R101: a Register and its negation sum to 16 or 0. -/
theorem add_negate (r : Register) : add r (negate r) = Register.zero := by
  have hlt := val_lt r
  apply val_injective
  rw [val_add, val_negate, show val Register.zero = 0 from rfl]
  omega

/-- R96: complementing each Bit takes the value from 15. -/
theorem val_bitwiseNot : ∀ r : Register, val (bitwiseNot r) = 15 - val r :=
  forall_register (by decide)

theorem add_bitwiseNot (r : Register) : add r (bitwiseNot r) = ⟨1, 1, 1, 1⟩ := by
  have hlt := val_lt r
  apply val_injective
  rw [val_add, val_bitwiseNot, show val ⟨1, 1, 1, 1⟩ = 15 from rfl]
  omega

/-- Settles O16: commutativity by the cells, the rest by the value of a sum. -/
theorem addLaws : Obligations.AddLaws := fun a b c =>
  ⟨add_comm_register a b, adderCells_comm a b, add_zero a, add_assoc_register a b c, add_negate a, add_bitwiseNot a⟩

/-- R91: the lanes of the AND unit are the binary digits of the integer AND. -/
theorem val_bitwiseAnd : ∀ a b : Register, val (bitwiseAnd a b) = val a &&& val b :=
  forall_two_registers (by decide)

/-- Settles O17: a Register is determined by its value, and the value is an integer AND. -/
theorem bitwiseAndIsIntegerAnd : Obligations.BitwiseAndIsIntegerAnd := by
  intro a b c
  refine ⟨val_bitwiseAnd a b, val_injective ?_, val_injective ?_, bitwiseAnd_self a, ?_⟩
  · rw [val_bitwiseAnd, val_bitwiseAnd, Nat.land_comm]
  · simp only [val_bitwiseAnd, Nat.land_assoc]
  · rw [val_bitwiseAnd]
    exact le_min Nat.and_le_left Nat.and_le_right

/-- Settles O19: the complement of the value, read both ways. -/
theorem bitwiseNotIsComplement : Obligations.BitwiseNotIsComplement := by
  intro a
  have hlt := val_lt a
  have hval := val_bitwiseNot a
  refine ⟨hval, ?_⟩
  rw [sval_eq_ite, sval_eq_ite]
  split_ifs <;> omega

/-- Settles O20: the value of a negation; -8, whose Register has the value 8, is the one signed value without an
opposite. -/
theorem negateIsTwosComplement : Obligations.NegateIsTwosComplement := by
  intro r
  have hlt := val_lt r
  have hval := val_negate r
  have height : r = ⟨1, 0, 0, 0⟩ ↔ val r = 8 := val_injective.eq_iff.symm
  refine ⟨hval, ?_, add_negate r, val_injective ?_⟩
  · simp only [height, sval_eq_ite]
    split_ifs <;> omega
  · rw [val_negate, hval]
    omega

/-- Settles O31: the sign wire is the upper half of the values; the pairs are counted. -/
theorem signBitSetForHalfThePairs : Obligations.SignBitSetForHalfThePairs :=
  ⟨b0_eq_one_iff, by decide⟩

end Sys2Proof.Machine
end

section
/-! What each meaning leaves, in arithmetic (spec/46_alu_operations.md rules R111 to R115). -/

namespace Sys2Proof.Machine

/-- R114: the sign wire as the indicator `n`. -/
theorem signBit_eq_ite (r : Register) : signBit r = if 8 ≤ val r then 1 else 0 := by
  split
  case isTrue h => exact (b0_eq_one_iff r).mpr h
  case isFalse h => exact (bit_eq_zero_iff_ne_one _).mpr ((b0_eq_one_iff r).not.mpr h)

/-- R111: the scratch register holds the magnitude of a result in the upper half, and 0 for any other. -/
theorem val_magnitude (r : Register) :
    val (if signBit r = 1 then negate r else Register.zero) = if 8 ≤ val r then 16 - val r else 0 := by
  have hlt := val_lt r
  by_cases h : signBit r = 1
  · have hhigh := (b0_eq_one_iff r).mp h
    rw [if_pos h, if_pos hhigh, val_negate]
    omega
  · rw [if_neg h, if_neg ((b0_eq_one_iff r).not.mp h)]
    rfl

/-- Settles O27: the closed form of ADD, with the adder's value. -/
theorem addCompletesWithSumAndMagnitude : Obligations.AddCompletesWithSumAndMagnitude := by
  intro s a b
  rw [← val_add]
  exact ⟨_, _, execAdd_eq a b s, rfl, rfl, rfl, val_magnitude _, rfl, rfl, hexDigit_val _, signBit_eq_ite _, rfl, rfl,
    rfl, rfl⟩

/-- Settles O28: the closed form of AND, with the AND unit's value. -/
theorem andCompletesWithBitwiseAnd : Obligations.AndCompletesWithBitwiseAnd := fun s a b =>
  ⟨_, _, execAnd_eq a b s, rfl, rfl, val_bitwiseAnd a b, rfl, rfl, rfl, hexDigit_val _, rfl, rfl, rfl, rfl, rfl⟩

/-- Settles O29: the closed form of NOT, with the NOT unit's value. -/
theorem notCompletesWithComplement : Obligations.NotCompletesWithComplement := fun s a =>
  ⟨_, _, execNot_eq a s, rfl, rfl, val_bitwiseNot a, rfl, rfl, rfl, hexDigit_val _, rfl, rfl, rfl, rfl, rfl⟩

/-- Settles O32: what each operation prints is a reading of its result, signed for ADD and unsigned for AND. -/
theorem annotationByOperation : Obligations.AnnotationByOperation := by
  intro s a b
  refine ⟨⟨_, _, execAdd_eq a b s, rfl, annotation_add _ _, ?_, sval_mem_range _⟩,
    ⟨_, _, execAnd_eq a b s, rfl, ?_, ?_⟩, ⟨_, _, execNot_eq a s, rfl, rfl⟩⟩
  · change sval (add a b) = _
    rw [← val_add, sval_eq_ite]
    split <;> omega
  · rw [← val_bitwiseAnd]
    rfl
  · exact Nat.and_le_left.trans (Nat.le_of_lt_succ (val_lt a))

/-- R111 to R113: every meaning leaves its operation's result in the registers, outputs that show it, and no line. -/
theorem exec_result (i : Instr) (s : State) : ∃ t o, exec i s = .next t ∧ t.outputs = some o ∧
    o.y = t.R ∧ hexDigit (val t.R) = .ok o.h ∧ o.m = t.S ∧ ResultOf i.opcode t o.n ∧ t.line = none := by
  cases i with
  | add a b =>
    exact ⟨_, _, execAdd_eq a b s, rfl, rfl, hexDigit_val _, rfl, ⟨val_add a b, b0_eq_one_iff _, val_magnitude _⟩, rfl⟩
  | not a => exact ⟨_, _, execNot_eq a s, rfl, rfl, hexDigit_val _, rfl, ⟨val_bitwiseNot a, rfl, rfl, rfl⟩, rfl⟩
  | and a b => exact ⟨_, _, execAnd_eq a b s, rfl, rfl, hexDigit_val _, rfl, ⟨val_bitwiseAnd a b, rfl, rfl⟩, rfl⟩

/-- A result is a matter of the four registers. -/
theorem resultOf_deliver (op : Opcode) (t : State) (q : Request) (op' : Opcode) (n : Bit) :
    ResultOf op (t.deliver q op') n ↔ ResultOf op t n := by
  cases op <;> simp only [ResultOf, State.deliver_A, State.deliver_B, State.deliver_R, State.deliver_S]

/-- R52, R116: what delivering a result leaves as the line. -/
theorem deliver_line_cases {t : State} {o : Outputs} (ho : t.outputs = some o) (hl : t.line = none) (q : Request)
    (op : Opcode) : (t.deliver q op).line = none ∨ (t.deliver q op).line = some (outputLine op o) := by
  cases q with
  | ports op' a b => exact .inl hl
  | word w => exact .inl hl
  | command args => exact .inr (by simp [ho])

/-- The coherence of a state with outputs, field by field. -/
theorem coherent_of_outputs {t : State} {o : Outputs} (ho : t.outputs = some o) (hy : o.y = t.R)
    (hh : hexDigit (val t.R) = .ok o.h) (hm : o.m = t.S)
    (hop : ∃ op, ResultOf op t o.n ∧ (t.line = none ∨ t.line = some (outputLine op o))) : t.Coherent := by
  unfold State.Coherent
  rw [ho]
  exact ⟨hy, hh, hm, hop⟩

/-- Settles O55: the next state is the delivered result of one instruction, whatever the state before was. -/
theorem stepKeepsCoherence : Obligations.StepKeepsCoherence := by
  intro s t _ hstep
  obtain ⟨q, i, u, -, -, hu, rfl⟩ := step_next_cases hstep
  obtain ⟨u', o, hu', ho, hy, hh, hm, hres, hline⟩ := exec_result i s
  cases hu.symm.trans hu'
  refine coherent_of_outputs ((u.deliver_outputs q _).trans ho) ?_ ?_ ?_
    ⟨i.opcode, (resultOf_deliver ..).mpr hres, deliver_line_cases ho hline q i.opcode⟩
  · rw [hy, State.deliver_R]
  · rw [State.deliver_R, hh]
  · rw [hm, State.deliver_S]

/-- Settles O56: at reset nothing has ended and the registers are zero. -/
theorem resetIsCoherent : Obligations.ResetIsCoherent :=
  ⟨rfl, rfl, rfl, rfl, rfl⟩

/-- Settles O57: the values at reset, and those of the first operation of an invocation. -/
theorem resetRegistersAreZero : Obligations.ResetRegistersAreZero :=
  ⟨rfl, rfl, rfl, rfl, rfl, rfl, fun s =>
    ⟨s.beginInvocation_A, s.beginInvocation_B, s.beginInvocation_R, s.beginInvocation_S⟩⟩

end Sys2Proof.Machine
end

section
/-! A step by what its request stands for: the outcome is the instruction's, or the fault that refuses the request.
For the word and the ports the one selection by the control field decides both (spec/10_state.md rules R25, R33, R36;
spec/30_encoding.md rules R42 to R45; spec/60_exceptions.md rules R131, R132). -/

namespace Sys2Proof.Machine

/-- R110: the outputs that an instruction drives. They depend on no state. -/
def outputsOfInstr : Instr → Outputs
  | .add a b =>
    outputsOf (add a b) (signBit (add a b)) (if signBit (add a b) = 1 then negate (add a b) else Register.zero)
  | .not a => outputsOf (bitwiseNot a) 0 Register.zero
  | .and a b => outputsOf (bitwiseAnd a b) 0 Register.zero

/-- Every instruction completes with its outputs and no line. -/
theorem exec_outputs (i : Instr) (s : State) :
    ∃ t, exec i s = .next t ∧ t.outputs = some (outputsOfInstr i) ∧ t.line = none := by
  cases i with
  | add a b => exact ⟨_, execAdd_eq a b s, rfl, rfl⟩
  | not a => exact ⟨_, execNot_eq a s, rfl, rfl⟩
  | and a b => exact ⟨_, execAnd_eq a b s, rfl, rfl⟩

/-- A presented request that stands for an instruction ends in that instruction's state, delivered. -/
theorem step_present_of_fetch_ok {s t : State} {q : Request} {i : Instr} (hf : fetch s.policies q = .ok i)
    (ht : exec i (s.present q) = .next t) : step (s.present q) = .next (t.deliver q i.opcode) :=
  step_of_fetch_ok (s.present_request q) hf ht

/-- A presented invocation faults exactly where its request stands for no instruction, with that fault. -/
theorem step_present_eq_fault_iff (s : State) (q : Request) (f : Fault) :
    step (s.present q) = .fault f ↔ fetch s.policies q = .error f := by
  constructor
  · intro h
    cases hf : fetch s.policies q with
    | error g =>
      rw [step_of_fetch_error (s.present_request q) hf] at h
      cases h
      rfl
    | ok i =>
      obtain ⟨t, ht, -, -⟩ := exec_outputs i (s.present q)
      cases (step_present_of_fetch_ok hf ht).symm.trans h
  · exact step_of_fetch_error (s.present_request q)

/-- A presented invocation has the outputs of the instruction that its request stands for, and no others. -/
theorem step_present_outputs_iff (s : State) (q : Request) (o : Outputs) :
    (∃ t, step (s.present q) = .next t ∧ t.outputs = some o) ↔
      ∃ i, fetch s.policies q = .ok i ∧ outputsOfInstr i = o := by
  constructor
  · rintro ⟨t, ht, ho⟩
    obtain ⟨q', i, u, hq, hf, hu, rfl⟩ := step_next_cases ht
    cases (s.present_request q).symm.trans hq
    obtain ⟨u', hu', ho', -⟩ := exec_outputs i (s.present q)
    cases hu.symm.trans hu'
    rw [State.deliver_outputs, ho'] at ho
    exact ⟨i, hf, Option.some.inj ho⟩
  · rintro ⟨i, hf, rfl⟩
    obtain ⟨t, ht, ho, -⟩ := exec_outputs i (s.present q)
    exact ⟨_, step_present_of_fetch_ok hf ht, (t.deliver_outputs q _).trans ho⟩

/-- Settles O45: each meaning completes, so that the step delivers its state. -/
theorem stepRunsTheDecodedInstruction : Obligations.StepRunsTheDecodedInstruction := by
  refine fun s q hq => ⟨fun i hi => ?_, fun f hf => step_of_fetch_error hq hf⟩
  obtain ⟨t, -, ht, -, -, -⟩ := exec_completes i s
  exact ⟨t, ht, step_of_fetch_ok hq hi ht⟩

/-- Settles O50: the two states agree on all that a step reads. -/
theorem outcomeDependsOnInputsOnly : Obligations.OutcomeDependsOnInputsOnly :=
  fun _ _ _ hp => step_congr rfl hp

/-- Log entry 3: a step leaves its request presented. -/
theorem step_request {s t : State} (h : step s = .next t) : t.request = s.request := by
  obtain ⟨q, i, u, -, -, hu, rfl⟩ := step_next_cases h
  obtain ⟨u', -, hu', -, hq, -⟩ := exec_completes i s
  cases hu.symm.trans hu'
  exact (u.deliver_request q _).trans hq

/-- Settles O51: a step leaves the request and the model arguments, and reads nothing else. -/
theorem stepIsIdempotent : Obligations.StepIsIdempotent := fun _ _ h =>
  (step_congr (step_request h) (step_policies h)).trans h

/-- Settles O53: a list of invocations ends each as on a block just reset, and the first of these is the fault. -/
theorem faultDoesNotPersist : Obligations.FaultDoesNotPersist := by
  intro s q q' f hf
  rw [perform_eq_map_reset, List.map_cons, ← step_present_eq_reset, hf]
  rfl

/-- R20: the ports stand for what their control field selects. -/
theorem fetch_ports (p : Config.Policies) (op : BitVec 2) (a b : Register) :
    fetch p (.ports op a b) = select p (.field op) op a b := rfl

/-- R55: so does a packed word. -/
theorem fetch_packWord (p : Config.Policies) (op : BitVec 2) (a b : Register) :
    fetch p (.word (packWord op a b)) = select p (.word (packWord op a b)) op a b :=
  decodeWord_packWord p op a b

/-- R55: what a control field selects does not depend on what its fault would record. -/
theorem select_ok_of_select_ok {p : Config.Policies} {info : ReservedInfo} {op : BitVec 2} {a b : Register} {i : Instr}
    (h : select p info op a b = .ok i) (info' : ReservedInfo) : select p info' op a b = .ok i := by
  unfold select at h ⊢
  split at h
  case h_4 =>
    split at h
    · cases h
    · exact h
  all_goals exact h

/-- R42: the reserved code selects NOT where the policy says so. -/
theorem select_reserved_of_not {p : Config.Policies} (hp : p.reservedOp = .not) (info : ReservedInfo) (a b : Register) :
    select p info 0b11#2 a b = .ok (.not a) := by
  simp [select, decodeControl, hp]

/-- R42, R132: the one fault of a selection. -/
theorem select_eq_error_iff (p : Config.Policies) (info : ReservedInfo) (op : BitVec 2) (a b : Register) (f : Fault) :
    select p info op a b = .error f ↔ op = 0b11#2 ∧ p.reservedOp = .fault ∧ f = .reservedOpcode info := by
  obtain ⟨rfl, h⟩ | ⟨rfl, h⟩ | ⟨rfl, h⟩ | ⟨rfl, hp, h⟩ | ⟨rfl, hp, h⟩ := select_cases p info op a b <;> rw [h]
  · simp
  · simp
  · simp
  · simp [hp, eq_comm]
  · simp [hp]

/-- Settles O47: the packed word and the ports select by the same field from the same operands. -/
theorem wordCarriesThePorts : Obligations.WordCarriesThePorts := by
  intro s op a b
  simp only [step_present_outputs_iff, step_present_eq_fault_iff, fetch_ports, fetch_packWord,
    select_eq_error_iff]
  refine ⟨fun o => exists_congr fun i => and_congr_left' ?_, by simp⟩
  exact ⟨fun h => select_ok_of_select_ok h _, fun h => select_ok_of_select_ok h _⟩

/-- R43: the numbers from 0x300 on are the words with control code 11. -/
theorem le_packWord_toNat_iff (op : BitVec 2) (a b : Register) :
    0x300 ≤ (packWord op a b).toNat ↔ op = 0b11#2 := by
  have ha := val_lt a
  have hb := val_lt b
  rw [packWord_toNat, ← BitVec.toNat_inj, BitVec.toNat_ofNat]
  omega

/-- The request an instruction runs under is carried along and changes nothing else. -/
theorem exec_present_of_exec {i : Instr} {s t : State} {q : Request} (h : exec i (s.present q) = .next t)
    (q' : Request) : exec i (s.present q') = .next (t.present q') := by
  cases i with
  | add a b => cases (execAdd_eq a b _).symm.trans h; exact execAdd_eq a b _
  | not a => cases h; rfl
  | and a b => cases h; rfl

/-- Two requests that stand for the same instruction end alike but for the request still presented, where neither
prints. -/
theorem step_present_of_same_instr {s : State} {q q' : Request} {i : Instr} (hq : fetch s.policies q = .ok i)
    (hq' : fetch s.policies q' = .ok i) (hprint : ∀ t : State, t.deliver q i.opcode = t)
    (hprint' : ∀ t : State, t.deliver q' i.opcode = t) :
    ∃ t, exec i (s.present q) = .next t ∧ step (s.present q) = .next t ∧
      step (s.present q') = .next (t.present q') := by
  obtain ⟨t, ht, -, -⟩ := exec_outputs i (s.present q)
  have hstep := step_present_of_fetch_ok hq ht
  have hstep' := step_present_of_fetch_ok hq' (exec_present_of_exec ht q')
  rw [hprint] at hstep
  rw [hprint'] at hstep'
  exact ⟨t, ht, hstep, hstep'⟩

/-- Settles O49: the selection's one fault, and the instruction NOT that code 11 shares with code 01 under `not`. -/
theorem reservedCodeByPolicy : Obligations.ReservedCodeByPolicy := by
  intro s a b op w f
  refine ⟨?_, ?_, fun hp => ?_⟩
  · rw [step_present_eq_fault_iff, fetch_ports, select_eq_error_iff]
  · obtain ⟨op, a, b, rfl⟩ := exists_packWord_eq w
    rw [step_present_eq_fault_iff, le_packWord_toNat_iff, fetch_packWord, select_eq_error_iff]
  · obtain ⟨t, -, hnot, hreserved⟩ := step_present_of_same_instr (q := .ports 0b01#2 a b) (q' := .ports 0b11#2 a b)
      (select_not s.policies (.field 0b01#2) a b) (select_reserved_of_not hp (.field 0b11#2) a b)
      (fun _ => rfl) (fun _ => rfl)
    exact ⟨t, hnot, hreserved⟩

/-- Settles O48: whatever the second operand, the two requests stand for the same NOT. -/
theorem notIgnoresSecondOperand : Obligations.NotIgnoresSecondOperand := by
  intro s a b b'
  have hports (x : Register) : fetch s.policies (.ports 0b01#2 a x) = .ok (.not a) :=
    select_not s.policies (.field 0b01#2) a x
  have hword (x : Register) : fetch s.policies (.word (packWord 0b01#2 a x)) = .ok (.not a) :=
    fetch_packWord ..
  obtain ⟨t, ht, hb, hb'⟩ := step_present_of_same_instr (hports b) (hports b') (fun _ => rfl) (fun _ => rfl)
  obtain ⟨u, -, hwb, hwb'⟩ := step_present_of_same_instr (hword b) (hword b') (fun _ => rfl) (fun _ => rfl)
  refine ⟨t, hb, ?_, hb', u, hwb, hwb'⟩
  cases ht
  rfl

/-- Settles O54: the two invocations drive the complement and then its sum with 1, which is how `negate` is wired. -/
theorem notThenAddOneNegates : Obligations.NotThenAddOneNegates := fun _ a =>
  ⟨_, _, _, _, step_present_of_fetch_ok (i := .not a) rfl (execNot_eq a _), rfl,
    step_present_of_fetch_ok (i := .add (bitwiseNot a) one) rfl (execAdd_eq _ one _), rfl, rfl⟩

end Sys2Proof.Machine
end

section
/-! The pieces of a command line: the operand literal, the flag, and the operands against their operation, in the
order in which they are judged (spec/30_encoding.md rules R48 to R51; spec/60_exceptions.md rules R134 to R139). -/

namespace Sys2Proof.Machine

/-- R72, R76: the alphabet is the digits of the Registers. -/
theorem mem_hexAlpha_iff (h : Char) : h ∈ hexAlpha ↔ ∃ r, regToHex r = h := by
  constructor
  · intro hmem
    obtain ⟨n, hpos⟩ := List.mem_iff_getElem?.mp hmem
    obtain ⟨hn, -⟩ := List.getElem?_eq_some_iff.mp hpos
    have hdigit := hexDigit_val (expand n)
    rw [val_expand_of_le (Nat.le_of_lt_succ hn), (hexDigit_eq_ok_iff n h).mpr hpos] at hdigit
    exact ⟨expand n, (Except.ok.inj hdigit).symm⟩
  · rintro ⟨r, rfl⟩
    exact List.get_mem _ _

/-- R73, R76: the digit of a Register has the Register's value. -/
theorem hexCharToValue_regToHex (r : Register) : hexCharToValue (regToHex r) = .ok (val r) :=
  (hexCharToValue_eq_ok_iff _ _).mpr ((hexDigit_eq_ok_iff _ _).mp (hexDigit_val r))

/-- R116: an operand Register is recovered from its digit, under every policy. -/
theorem operandOfDigit_regToHex (p : Config.CodecRangePolicy) (r : Register) :
    operandOfDigit p (regToHex r) = .ok r := by
  rw [operandOfDigit, hexCharToValue_regToHex]
  exact decimalToBinary_val p r

/-- R50: the operand literal of a Register. -/
def literal (r : Register) : Text := ['0', 'x', regToHex r]

/-- R50: the admitted literals are those of the Registers. -/
theorem admittedLiteral_iff (t : Text) : admittedLiteral t = true ↔ ∃ r, t = literal r := by
  unfold admittedLiteral literal
  split
  case h_1 z x h =>
    simp only [Bool.and_eq_true, beq_iff_eq, List.contains_iff_mem, mem_hexAlpha_iff, List.cons.injEq, and_true]
    constructor
    · rintro ⟨⟨rfl, rfl⟩, r, rfl⟩
      exact ⟨r, rfl, rfl, rfl⟩
    · rintro ⟨r, rfl, rfl, rfl⟩
      exact ⟨⟨rfl, rfl⟩, r, rfl⟩
  case h_2 hshape =>
    simp only [Bool.false_eq_true, false_iff, not_exists]
    exact fun r => hshape _ _ _

theorem parseLiteral_literal (r : Register) : parseLiteral (literal r) = .ok (regToHex r) :=
  if_pos ⟨rfl, rfl, (mem_hexAlpha_iff _).mpr ⟨r, rfl⟩⟩

/-- R50: a text that is not admitted is refused by itself (log entry 9). -/
theorem parseLiteral_of_not_admitted {t : Text} (h : admittedLiteral t = false) :
    parseLiteral t = .error (.invalidHexLiteral (.literal t)) := by
  unfold parseLiteral
  split
  case h_1 z x d =>
    refine if_neg ?_
    rintro ⟨rfl, rfl, hd⟩
    simp [admittedLiteral, hd] at h
  case h_2 => rfl

/-- R50: a text is the literal of a Register, or is refused. -/
theorem literal_cases (t : Text) :
    (∃ r, t = literal r) ∨ parseLiteral t = .error (.invalidHexLiteral (.literal t)) := by
  cases h : admittedLiteral t with
  | true => exact .inl ((admittedLiteral_iff t).mp h)
  | false => exact .inr (parseLiteral_of_not_admitted h)

/-- Settles O38: a literal is that of a Register, whose digit is the one that is parsed. -/
theorem operandLiteralIsStrict : Obligations.OperandLiteralIsStrict := by
  intro t
  rw [← hexAlpha_eq_toList]
  obtain ⟨r, rfl⟩ | herr := literal_cases t
  · rw [parseLiteral_literal]
    refine ⟨fun h => ⟨fun hh => ?_, fun ⟨ht, _⟩ => ?_⟩, fun f hf => (nomatch hf), fun h hh => ?_⟩
    · cases hh
      exact ⟨rfl, (mem_hexAlpha_iff _).mpr ⟨r, rfl⟩⟩
    · simpa [literal] using ht
    · cases hh
      exact ⟨val r, Nat.le_of_lt_succ (val_lt r), hexCharToValue_regToHex r⟩
  · rw [herr]
    refine ⟨fun h => ⟨fun hh => (nomatch hh), ?_⟩, fun f hf => (Except.error.inj hf).symm, fun h hh => (nomatch hh)⟩
    rintro ⟨rfl, hh⟩
    obtain ⟨r, rfl⟩ := (mem_hexAlpha_iff h).mp hh
    cases (parseLiteral_literal r).symm.trans herr

/-- R48, R136: an accepted flag gives its character. -/
theorem parseFlag_of_accepted {p : Config.FlagPolicy} {c : Char} (h : p = .legacyNot ∨ c = 'a' ∨ c = 'd') :
    parseFlag p ['-', c] = .ok c :=
  if_pos ⟨rfl, h⟩

/-- R136: a recognisable flag with a character that the policy does not accept. -/
theorem parseFlag_of_not_accepted {p : Config.FlagPolicy} {c : Char} (h : ¬(p = .legacyNot ∨ c = 'a' ∨ c = 'd')) :
    parseFlag p ['-', c] = .error (.invalidFlag ['-', c]) :=
  if_neg fun hc => h hc.2

/-- R136: a first argument that is not `-` and one character. -/
theorem parseFlag_of_shape {p : Config.FlagPolicy} {flag : Text} (h : ∀ c, flag ≠ ['-', c]) :
    parseFlag p flag = .error (.invalidFlag flag) := by
  unfold parseFlag
  split
  case h_1 dash c =>
    refine if_neg ?_
    rintro ⟨rfl, -⟩
    exact h c rfl
  case h_2 => rfl

/-- R136: a first argument is an accepted flag or is refused. -/
theorem parseFlag_cases (p : Config.FlagPolicy) (flag : Text) :
    (∃ c, flag = ['-', c] ∧ (p = .legacyNot ∨ c = 'a' ∨ c = 'd')) ∨ parseFlag p flag = .error (.invalidFlag flag) := by
  by_cases hshape : ∃ c, flag = ['-', c]
  · obtain ⟨c, rfl⟩ := hshape
    by_cases hc : p = .legacyNot ∨ c = 'a' ∨ c = 'd'
    · exact .inl ⟨c, rfl, hc⟩
    · exact .inr (parseFlag_of_not_accepted hc)
  · exact .inr (parseFlag_of_shape (not_exists.mp hshape))

/-- Settles O35: the decoder has no arm for code 11, and the policy `reject` accepts two characters. -/
theorem flagCharacterSelectsOperation : Obligations.FlagCharacterSelectsOperation := by
  intro c
  refine ⟨rfl, ?_, fun _ => rfl, parseFlag_of_accepted (.inl rfl), ?_⟩
  · cases decodeFlag c <;> decide
  · split
    case isTrue h => exact parseFlag_of_accepted (.inr h)
    case isFalse h => exact parseFlag_of_not_accepted (by simpa using h)

/-- R48: `-a` is ADD whatever the number of operands. -/
theorem selectOpcode_eq_add_iff (c : Char) (n : Nat) : selectOpcode c n = .add ↔ c = 'a' := by
  unfold selectOpcode decodeFlag
  split_ifs <;> simp_all

/-- R48, D10: `-d` is AND unless it has one operand. -/
theorem selectOpcode_eq_and_iff (c : Char) (n : Nat) : selectOpcode c n = .and ↔ c = 'd' ∧ n ≠ 1 := by
  unfold selectOpcode decodeFlag
  split_ifs <;> simp_all

/-- R48, D10: NOT is `-d` with one operand, and every other character. -/
theorem selectOpcode_eq_not_iff (c : Char) (n : Nat) :
    selectOpcode c n = .not ↔ (c = 'd' ∧ n = 1) ∨ (c ≠ 'a' ∧ c ≠ 'd') := by
  unfold selectOpcode decodeFlag
  split_ifs <;> simp_all

/-- R135: fewer operands than the operation takes. -/
theorem parseOperands_of_lt {op : Opcode} {ts : List Text} (h : ts.length < arity op) :
    parseOperands op ts = .error (.missingArgument (some op) ts.length) :=
  if_pos h

/-- R139: more operands than the operation takes. -/
theorem parseOperands_of_gt {op : Opcode} {ts : List Text} (h : arity op < ts.length) :
    parseOperands op ts = .error (.extraArgument op ts.length) := by
  unfold parseOperands
  rw [if_neg (by omega)]
  split <;> simp_all [arity]

/-- R50: one operand against NOT. -/
theorem parseOperands_not (t : Text) :
    parseOperands .not [t] = (parseLiteral t).bind fun h => .ok (.not h) := rfl

/-- R137 item 4: two operands against ADD, the first judged first. -/
theorem parseOperands_add (t1 t2 : Text) :
    parseOperands .add [t1, t2] =
      (parseLiteral t1).bind fun h1 => (parseLiteral t2).bind fun h2 => .ok (.add h1 h2) := rfl

/-- R137 item 4: two operands against AND, the first judged first. -/
theorem parseOperands_and (t1 t2 : Text) :
    parseOperands .and [t1, t2] =
      (parseLiteral t1).bind fun h1 => (parseLiteral t2).bind fun h2 => .ok (.and h1 h2) := rfl

theorem parseOperands_not_literal (r : Register) : parseOperands .not [literal r] = .ok (.not (regToHex r)) := by
  rw [parseOperands_not, parseLiteral_literal]
  rfl

theorem parseOperands_add_literals (a b : Register) :
    parseOperands .add [literal a, literal b] = .ok (.add (regToHex a) (regToHex b)) := by
  rw [parseOperands_add, parseLiteral_literal, parseLiteral_literal]
  rfl

theorem parseOperands_and_literals (a b : Register) :
    parseOperands .and [literal a, literal b] = .ok (.and (regToHex a) (regToHex b)) := by
  rw [parseOperands_and, parseLiteral_literal, parseLiteral_literal]
  rfl

/-- R137 item 4: the one operand of NOT is bad. -/
theorem parseOperands_of_bad {t : Text} {f : Fault} (h : parseLiteral t = .error f) :
    parseOperands .not [t] = .error f := by
  rw [parseOperands_not, h]
  rfl

/-- R137 item 4: the first of two operands is bad, whatever the second is. -/
theorem parseOperands_of_bad_first {op : Opcode} {t1 : Text} {f : Fault} (hop : op ≠ .not)
    (h : parseLiteral t1 = .error f) (t2 : Text) : parseOperands op [t1, t2] = .error f := by
  cases op with
  | not => exact absurd rfl hop
  | add => rw [parseOperands_add, h]; rfl
  | and => rw [parseOperands_and, h]; rfl

/-- R137 item 4: the first of two operands is good and the second is bad. -/
theorem parseOperands_of_bad_second {op : Opcode} {t2 : Text} {f : Fault} (hop : op ≠ .not) (r : Register)
    (h : parseLiteral t2 = .error f) : parseOperands op [literal r, t2] = .error f := by
  cases op with
  | not => exact absurd rfl hop
  | add => rw [parseOperands_add, parseLiteral_literal, h]; rfl
  | and => rw [parseOperands_and, parseLiteral_literal, h]; rfl

/-- R137 items 3 and 4: the faults of the operands. -/
inductive OperandFault : Fault → Prop
  | literal (t : Text) : OperandFault (.invalidHexLiteral (.literal t))
  | missing (op : Opcode) (n : Nat) : OperandFault (.missingArgument (some op) n)
  | extra (op : Opcode) (n : Nat) : OperandFault (.extraArgument op n)

/-- R137: two operands are two literals, or the first bad one is the fault. -/
theorem parseOperands_pair_cases {op : Opcode} (hop : op ≠ .not) (t1 t2 : Text) :
    (∃ a b, [t1, t2] = [literal a, literal b]) ∨ ∃ f, OperandFault f ∧ parseOperands op [t1, t2] = .error f := by
  obtain ⟨a, rfl⟩ | h1 := literal_cases t1
  · obtain ⟨b, rfl⟩ | h2 := literal_cases t2
    · exact .inl ⟨a, b, rfl⟩
    · exact .inr ⟨_, .literal t2, parseOperands_of_bad_second hop a h2⟩
  · exact .inr ⟨_, .literal t1, parseOperands_of_bad_first hop h1 t2⟩

/-- R137: the operands are as many literals as the operation takes, or end in a fault of the operands. -/
theorem parseOperands_cases (op : Opcode) (ts : List Text) :
    (op = .add ∧ ∃ a b, ts = [literal a, literal b]) ∨ (op = .and ∧ ∃ a b, ts = [literal a, literal b]) ∨
    (op = .not ∧ ∃ a, ts = [literal a]) ∨ ∃ f, OperandFault f ∧ parseOperands op ts = .error f := by
  obtain hlt | heq | hgt := Nat.lt_trichotomy ts.length (arity op)
  · exact .inr (.inr (.inr ⟨_, .missing op _, parseOperands_of_lt hlt⟩))
  · cases op with
    | not =>
      obtain ⟨t, rfl⟩ := List.length_eq_one_iff.mp heq
      obtain ⟨a, rfl⟩ | h := literal_cases t
      · exact .inr (.inr (.inl ⟨rfl, a, rfl⟩))
      · exact .inr (.inr (.inr ⟨_, .literal t, parseOperands_of_bad h⟩))
    | add =>
      obtain ⟨t1, t2, rfl⟩ := List.length_eq_two.mp heq
      obtain h | h := parseOperands_pair_cases (op := .add) nofun t1 t2
      · exact .inl ⟨rfl, h⟩
      · exact .inr (.inr (.inr h))
    | and =>
      obtain ⟨t1, t2, rfl⟩ := List.length_eq_two.mp heq
      obtain h | h := parseOperands_pair_cases (op := .and) nofun t1 t2
      · exact .inr (.inl ⟨rfl, h⟩)
      · exact .inr (.inr (.inr h))
  · exact .inr (.inr (.inr ⟨_, .extra op _, parseOperands_of_gt hgt⟩))

theorem operandFault_of_parseOperands {op : Opcode} {ts : List Text} {f : Fault} (h : parseOperands op ts = .error f) :
    OperandFault f := by
  obtain ⟨rfl, a, b, rfl⟩ | ⟨rfl, a, b, rfl⟩ | ⟨rfl, a, rfl⟩ | ⟨g, hg, herr⟩ := parseOperands_cases op ts
  · cases (parseOperands_add_literals a b).symm.trans h
  · cases (parseOperands_and_literals a b).symm.trans h
  · cases (parseOperands_not_literal a).symm.trans h
  · cases herr.symm.trans h
    exact hg

/-- R137 items 1 and 2: a refused flag is the fault, whatever the operands are. -/
theorem parse_of_parseFlag_error {p : Config.FlagPolicy} {flag : Text} {f : Fault} (h : parseFlag p flag = .error f)
    (ts : List Text) : parse p (flag :: ts) = .error f := by
  rw [parse, h]
  rfl

/-- R48, R137 item 3: after an accepted flag the operands are judged against the operation that it selects. -/
theorem parse_of_accepted {p : Config.FlagPolicy} {c : Char} (h : p = .legacyNot ∨ c = 'a' ∨ c = 'd') (ts : List Text) :
    parse p (['-', c] :: ts) = parseOperands (selectOpcode c ts.length) ts := by
  rw [parse, parseFlag_of_accepted h]
  rfl

/-- Settles O39: the flag is judged alone, and the operands of an accepted one end in faults of the operands. -/
theorem flagIsCheckedFirst : Obligations.FlagIsCheckedFirst := by
  refine ⟨fun _ => rfl, fun p flag ts h => parse_of_parseFlag_error (parseFlag_of_shape h) ts, fun c ts hc => ?_,
    fun p c ts hc flag hf => ?_⟩
  · exact parse_of_parseFlag_error (parseFlag_of_not_accepted (by simpa using hc)) ts
  · rw [parse_of_accepted hc] at hf
    cases operandFault_of_parseOperands hf

/-- Settles O40: the count is compared with the arity of the operation that flag and count select. -/
theorem countIsCheckedBeforeLiterals : Obligations.CountIsCheckedBeforeLiterals := by
  intro p ts
  have ha : selectOpcode 'a' ts.length = .add := (selectOpcode_eq_add_iff _ _).mpr rfl
  have hd (h : ts.length ≠ 1) : selectOpcode 'd' ts.length = .and := (selectOpcode_eq_and_iff _ _).mpr ⟨rfl, h⟩
  have hc {c : Char} (h : c ≠ 'a' ∧ c ≠ 'd') : selectOpcode c ts.length = .not :=
    (selectOpcode_eq_not_iff _ _).mpr (.inr h)
  refine ⟨fun h => ?_, fun h => ?_, fun h => ?_, fun h => ?_, fun c hne hp => ⟨fun h => ?_, fun h => ?_⟩⟩
  · rw [parse_of_accepted (.inr (.inl rfl)), ha, parseOperands_of_lt (op := .add) h]
  · rw [parse_of_accepted (.inr (.inr rfl)), hd (by omega), parseOperands_of_lt (by rw [h]; decide)]
  · rw [parse_of_accepted (.inr (.inl rfl)), ha, parseOperands_of_gt (op := .add) h]
  · rw [parse_of_accepted (.inr (.inr rfl)), hd (by omega), parseOperands_of_gt (op := .and) h]
  · rw [parse_of_accepted (.inl hp), hc hne, parseOperands_of_lt (by rw [h]; decide)]
  · rw [parse_of_accepted (.inl hp), hc hne, parseOperands_of_gt (op := .not) h]

/-- Settles O41: with flag and count accepted the first bad operand is the fault. -/
theorem literalsAreCheckedInOrder : Obligations.LiteralsAreCheckedInOrder := by
  intro p c
  refine ⟨fun hc t1 t2 => ?_, fun t ht => ?_, fun hc hp t ht => ?_⟩
  · have hop : selectOpcode c 2 ≠ .not := by
      rw [ne_eq, selectOpcode_eq_not_iff]
      rintro (⟨-, h⟩ | ⟨hna, hnd⟩)
      · exact absurd h (by decide)
      · exact hc.elim hna hnd
    have hparse : parse p [['-', c], t1, t2] = parseOperands (selectOpcode c 2) [t1, t2] :=
      parse_of_accepted (.inr hc) _
    rw [hparse]
    refine ⟨fun h1 => parseOperands_of_bad_first hop (parseLiteral_of_not_admitted h1) t2, fun h1 h2 => ?_⟩
    obtain ⟨r, rfl⟩ := (admittedLiteral_iff t1).mp h1
    exact parseOperands_of_bad_second hop r (parseLiteral_of_not_admitted h2)
  · rw [parse_of_accepted (.inr (.inr rfl)), List.length_singleton, (selectOpcode_eq_not_iff _ _).mpr (.inl ⟨rfl, rfl⟩)]
    exact parseOperands_of_bad (parseLiteral_of_not_admitted ht)
  · rw [parse_of_accepted (.inl hp), List.length_singleton, (selectOpcode_eq_not_iff _ _).mpr (.inr hc)]
    exact parseOperands_of_bad (parseLiteral_of_not_admitted ht)

end Sys2Proof.Machine
end

section
/-! A command line as an instruction. It is one of four spellings of an instruction, or ends in a fault of the flag,
the count or a literal; and what the spec's `run` prints for it is what a step prints (spec/30_encoding.md rules R49,
R51, R52; spec/46_alu_operations.md rule R116; spec/60_exceptions.md rule R133). -/

namespace Sys2Proof.Machine

/-- R49: the admitted spellings of an instruction. -/
inductive Spelling (p : Config.FlagPolicy) : List Text → Instr → Prop
  | add (a b : Register) : Spelling p [['-', 'a'], literal a, literal b] (.add a b)
  | and (a b : Register) : Spelling p [['-', 'd'], literal a, literal b] (.and a b)
  | not (a : Register) : Spelling p [['-', 'd'], literal a] (.not a)
  | legacyNot (c : Char) (hc : c ≠ 'a' ∧ c ≠ 'd') (hp : p = .legacyNot) (a : Register) :
      Spelling p [['-', c], literal a] (.not a)

/-- R116: what a parsed line of Registers' digits denotes. -/
theorem decodeCommand_of_parse_add {p : Config.Policies} {args : List Text} {a b : Register}
    (h : parse p.flag args = .ok (.add (regToHex a) (regToHex b))) : decodeCommand p args = .ok (.add a b) := by
  simp only [decodeCommand, h, bind, Except.bind, operandOfDigit_regToHex]
  rfl

theorem decodeCommand_of_parse_and {p : Config.Policies} {args : List Text} {a b : Register}
    (h : parse p.flag args = .ok (.and (regToHex a) (regToHex b))) : decodeCommand p args = .ok (.and a b) := by
  simp only [decodeCommand, h, bind, Except.bind, operandOfDigit_regToHex]
  rfl

theorem decodeCommand_of_parse_not {p : Config.Policies} {args : List Text} {a : Register}
    (h : parse p.flag args = .ok (.not (regToHex a))) : decodeCommand p args = .ok (.not a) := by
  simp only [decodeCommand, h, bind, Except.bind, operandOfDigit_regToHex]
  rfl

theorem decodeCommand_of_parse_error {p : Config.Policies} {args : List Text} {f : Fault}
    (h : parse p.flag args = .error f) : decodeCommand p args = .error f := by
  rw [decodeCommand, h]
  rfl

/-- R49: every spelling denotes its instruction. -/
theorem decodeCommand_of_spelling {p : Config.Policies} {args : List Text} {i : Instr} (h : Spelling p.flag args i) :
    decodeCommand p args = .ok i := by
  cases h with
  | add a b =>
    apply decodeCommand_of_parse_add
    rw [parse_of_accepted (.inr (.inl rfl)), (selectOpcode_eq_add_iff _ _).mpr rfl, parseOperands_add_literals]
  | and a b =>
    apply decodeCommand_of_parse_and
    rw [parse_of_accepted (.inr (.inr rfl)), (selectOpcode_eq_and_iff _ _).mpr ⟨rfl, by simp⟩,
      parseOperands_and_literals]
  | not a =>
    apply decodeCommand_of_parse_not
    rw [parse_of_accepted (.inr (.inr rfl)), List.length_singleton, (selectOpcode_eq_not_iff _ _).mpr (.inl ⟨rfl, rfl⟩),
      parseOperands_not_literal]
  | legacyNot c hc hp a =>
    apply decodeCommand_of_parse_not
    rw [parse_of_accepted (.inl hp), (selectOpcode_eq_not_iff _ _).mpr (.inr hc), parseOperands_not_literal]

/-- R130: the four faults of a command line. -/
inductive CommandFault : Fault → Prop
  | noFlag : CommandFault (.missingArgument none 0)
  | flag (t : Text) : CommandFault (.invalidFlag t)
  | operands {f : Fault} (h : OperandFault f) : CommandFault f

/-- R49, R51: a command line is a spelling of an instruction, or ends in one of its faults. -/
theorem spelling_or_commandFault (p : Config.Policies) (args : List Text) :
    (∃ i, Spelling p.flag args i) ∨ ∃ f, CommandFault f ∧ decodeCommand p args = .error f := by
  cases args with
  | nil => exact .inr ⟨_, .noFlag, rfl⟩
  | cons flag ts =>
    obtain ⟨c, rfl, hc⟩ | herr := parseFlag_cases p.flag flag
    · obtain ⟨hop, a, b, rfl⟩ | ⟨hop, a, b, rfl⟩ | ⟨hop, a, rfl⟩ | ⟨f, hf, herr⟩ :=
        parseOperands_cases (selectOpcode c ts.length) ts
      · obtain rfl := (selectOpcode_eq_add_iff _ _).mp hop
        exact .inl ⟨_, .add a b⟩
      · obtain ⟨rfl, -⟩ := (selectOpcode_eq_and_iff _ _).mp hop
        exact .inl ⟨_, .and a b⟩
      · obtain ⟨rfl, -⟩ | ⟨hna, hnd⟩ := (selectOpcode_eq_not_iff _ _).mp hop
        · exact .inl ⟨_, .not a⟩
        · exact .inl ⟨_, .legacyNot c ⟨hna, hnd⟩ (hc.resolve_right (by simp [hna, hnd])) a⟩
      · exact .inr ⟨f, .operands hf, decodeCommand_of_parse_error ((parse_of_accepted hc ts).trans herr)⟩
    · exact .inr ⟨_, .flag flag, decodeCommand_of_parse_error (parse_of_parseFlag_error herr ts)⟩

/-- R49: a command line denotes an instruction exactly where it is a spelling of it. -/
theorem decodeCommand_eq_ok_iff (p : Config.Policies) (args : List Text) (i : Instr) :
    decodeCommand p args = .ok i ↔ Spelling p.flag args i := by
  refine ⟨fun h => ?_, decodeCommand_of_spelling⟩
  obtain ⟨j, hj⟩ | ⟨f, -, herr⟩ := spelling_or_commandFault p args
  · cases (decodeCommand_of_spelling hj).symm.trans h
    exact hj
  · cases herr.symm.trans h

/-- R51: a refused command line ends in one of its faults. -/
theorem commandFault_of_decodeCommand {p : Config.Policies} {args : List Text} {f : Fault}
    (h : decodeCommand p args = .error f) : CommandFault f := by
  obtain ⟨j, hj⟩ | ⟨g, hg, herr⟩ := spelling_or_commandFault p args
  · cases (decodeCommand_of_spelling hj).symm.trans h
  · cases herr.symm.trans h
    exact hg

/-- Settles O36: the four spellings, and that no other command line denotes an instruction. -/
theorem admittedSpellingsDenote : Obligations.AdmittedSpellingsDenote := by
  refine fun p => ⟨fun a b => ⟨decodeCommand_of_spelling (.add a b), decodeCommand_of_spelling (.and a b),
    decodeCommand_of_spelling (.not a), fun c hc hp => decodeCommand_of_spelling (.legacyNot c hc hp a)⟩,
    fun args i h => ?_⟩
  cases (decodeCommand_eq_ok_iff p args i).mp h with
  | add a b => exact ⟨a, b, .inl ⟨rfl, rfl⟩⟩
  | and a b => exact ⟨a, b, .inr (.inl ⟨rfl, rfl⟩)⟩
  | not a => exact ⟨a, a, .inr (.inr (.inl ⟨rfl, rfl⟩))⟩
  | legacyNot c hc hp a => exact ⟨a, a, .inr (.inr (.inr ⟨c, hc.1, hc.2, hp, rfl, rfl⟩))⟩

/-- R49, R50: the syntactic check admits the spellings and nothing else. -/
theorem admittedCommand_iff (p : Config.FlagPolicy) (args : List Text) :
    admittedCommand p args = true ↔ ∃ i, Spelling p args i := by
  constructor
  · intro h
    unfold admittedCommand at h
    split at h
    case h_1 dash c t1 t2 =>
      simp only [Bool.and_eq_true, beq_iff_eq, Bool.or_eq_true] at h
      obtain ⟨⟨⟨rfl, hc⟩, ht1⟩, ht2⟩ := h
      obtain ⟨a, rfl⟩ := (admittedLiteral_iff t1).mp ht1
      obtain ⟨b, rfl⟩ := (admittedLiteral_iff t2).mp ht2
      obtain rfl | rfl := hc
      · exact ⟨_, .add a b⟩
      · exact ⟨_, .and a b⟩
    case h_2 dash c t =>
      simp only [Bool.and_eq_true, beq_iff_eq, Bool.or_eq_true, bne_iff_ne] at h
      obtain ⟨⟨rfl, hc⟩, ht⟩ := h
      obtain ⟨a, rfl⟩ := (admittedLiteral_iff t).mp ht
      obtain rfl | hd := eq_or_ne c 'd'
      · exact ⟨_, .not a⟩
      · obtain ⟨hna, hp⟩ := hc.resolve_left hd
        exact ⟨_, .legacyNot c ⟨hna, hd⟩ hp a⟩
    case h_3 => cases h
  · have hlit (r : Register) : admittedLiteral (literal r) = true := (admittedLiteral_iff _).mpr ⟨r, rfl⟩
    rintro ⟨i, hi⟩
    cases hi <;> simp [admittedCommand, *]

/-- Settles O37: the check admits the spellings, and these are what denotes an instruction. -/
theorem commandReadExactlyWhereAdmitted : Obligations.CommandReadExactlyWhereAdmitted := by
  intro p args
  obtain ⟨i, hi⟩ | ⟨f, -, herr⟩ := spelling_or_commandFault p args
  · rw [if_pos ((admittedCommand_iff _ _).mpr ⟨i, hi⟩)]
    exact ⟨i, decodeCommand_of_spelling hi⟩
  · rw [if_neg]
    · exact ⟨f, herr⟩
    · intro h
      obtain ⟨i, hi⟩ := (admittedCommand_iff _ _).mp h
      cases (decodeCommand_of_spelling hi).symm.trans herr

/-- Settles O43: the step's fault is the command line's, which is none of the two. -/
theorem commandPathNeverRangeOrReserved : Obligations.CommandPathNeverRangeOrReserved := by
  intro s args
  have hfault {f : Fault} (h : step (s.present (.command args)) = .fault f) : CommandFault f :=
    commandFault_of_decodeCommand ((step_present_eq_fault_iff s _ f).mp h)
  constructor <;> intro recorded h <;> cases hfault h with
  | operands h => cases h

/-- R116: `run` prints the line of the instruction that the command line denotes. -/
theorem run_eq_map (p : Config.Policies) (args : List Text) :
    run p args = (decodeCommand p args).map fun i => outputLine i.opcode (outputsOfInstr i) := by
  unfold run decodeCommand
  cases parse p.flag args with
  | error f => rfl
  | ok l =>
    cases l with
    | add h1 h2 | and h1 h2 =>
      simp only [bind, Except.bind]
      cases operandOfDigit p.codecRange h1 with
      | error f => rfl
      | ok a => cases operandOfDigit p.codecRange h2 <;> rfl
    | not h =>
      simp only [bind, Except.bind]
      cases operandOfDigit p.codecRange h <;> rfl

/-- Settles O42: a line is printed, and a fault raised, exactly as the command line denotes an instruction or none. -/
theorem runAgreesWithStep : Obligations.RunAgreesWithStep := by
  intro s args
  rw [run_eq_map]
  cases hd : decodeCommand s.policies args with
  | error g =>
    have hstep : step (s.present (.command args)) = .fault g := (step_present_eq_fault_iff s _ g).mpr hd
    rw [hstep]
    simp [Except.map]
  | ok i =>
    obtain ⟨t, ht, ho, -⟩ := exec_outputs i (s.present (.command args))
    rw [step_present_of_fetch_ok (q := .command args) hd ht]
    simp [Except.map, ho]

/-- Settles O44: all three forms deliver the state of the instruction's meaning, which has no line yet. -/
theorem linePrintedForCommandsOnly : Obligations.LinePrintedForCommandsOnly := by
  intro s i
  refine ⟨fun args hi => ?_, fun op a b hi => ?_, fun w hi => ?_⟩
  · obtain ⟨t, ht, ho, -⟩ := exec_outputs i (s.present (.command args))
    exact ⟨_, _, step_present_of_fetch_ok hi ht, ho, congrArg (Option.map _) ho⟩
  · obtain ⟨t, ht, -, hl⟩ := exec_outputs i (s.present (.ports op a b))
    exact ⟨t, step_present_of_fetch_ok hi ht, hl⟩
  · obtain ⟨t, ht, -, hl⟩ := exec_outputs i (s.present (.word w))
    exact ⟨t, step_present_of_fetch_ok hi ht, hl⟩

end Sys2Proof.Machine
end

section
/-! The decimal numeral of an integer (spec/30_encoding.md rule R53, D22): its digits read back as the magnitude, the
first of them is not `0` where the magnitude is positive, and none is a minus sign. -/

namespace Sys2Proof.Machine

/-- R53: the character of a decimal digit. -/
def decimalChar (k : Nat) : Char := hexAlpha.getD k '0'

/-- A decimal digit is found at its own position. -/
theorem findIdx_decimalChar : ∀ k < 10, (hexAlpha.take 10).findIdx? (fun d => d == decimalChar k) = some k := by
  decide

/-- D22: only the digit of 0 is a `0`. -/
theorem decimalChar_ne_zero : ∀ k < 10, k ≠ 0 → decimalChar k ≠ '0' := by
  decide

/-- D22: no digit is a minus sign. -/
theorem decimalChar_ne_minus : ∀ k < 10, decimalChar k ≠ '-' := by
  decide

/-- Reading one more digit, on the left. -/
theorem digitsValue_decimalChar {k : Nat} (hk : k < 10) (acc : Nat) (t : Text) :
    digitsValue acc (decimalChar k :: t) = digitsValue (10 * acc + k) t := by
  rw [digitsValue, findIdx_decimalChar k hk]

/-- The digits read so far are the accumulator of the rest. -/
theorem digitsValue_append {t : Text} {acc v : Nat} (h : digitsValue acc t = some v) (t' : Text) :
    digitsValue acc (t ++ t') = digitsValue v t' := by
  induction t generalizing acc with
  | nil =>
    cases h
    rfl
  | cons c cs ih =>
    rw [List.cons_append, digitsValue]
    rw [digitsValue] at h
    split at h
    · exact ih h
    · cases h

/-- R53: a number below 10 is one digit. -/
theorem digits_of_lt {n : Nat} (h : n < 10) (fuel : Nat) : digits (fuel + 1) n = [decimalChar n] := by
  rw [digits, if_pos h, Nat.mod_eq_of_lt h]
  rfl

/-- R53: any other number is the digits of its tenth and one digit more. -/
theorem digits_of_ge {n : Nat} (h : ¬n < 10) (fuel : Nat) :
    digits (fuel + 1) n = digits fuel (n / 10) ++ [decimalChar (n % 10)] := by
  rw [digits, if_neg h]
  rfl

/-- R53: with digits enough for the number, they read back as it. -/
theorem digitsValue_digits {fuel n : Nat} (h : n < fuel) : digitsValue 0 (digits fuel n) = some n := by
  induction fuel generalizing n with
  | zero => omega
  | succ fuel ih =>
    by_cases hn : n < 10
    · rw [digits_of_lt hn, digitsValue_decimalChar hn, Nat.mul_zero, Nat.zero_add, digitsValue]
    · have hmod : n % 10 < 10 := Nat.mod_lt n (by decide)
      rw [digits_of_ge hn, digitsValue_append (ih (n := n / 10) (by omega)), digitsValue_decimalChar hmod, digitsValue,
        Nat.div_add_mod]

/-- D22: the first digit of a positive number is not 0. -/
theorem exists_digits_eq_cons {fuel n : Nat} (h : n < fuel) (hpos : n ≠ 0) :
    ∃ k t, k < 10 ∧ k ≠ 0 ∧ digits fuel n = decimalChar k :: t := by
  induction fuel generalizing n with
  | zero => omega
  | succ fuel ih =>
    by_cases hn : n < 10
    · exact ⟨n, [], hn, hpos, digits_of_lt hn fuel⟩
    · obtain ⟨k, t, hk, hk0, ht⟩ := ih (n := n / 10) (by omega) (by omega)
      exact ⟨k, t ++ [decimalChar (n % 10)], hk, hk0, by rw [digits_of_ge hn, ht, List.cons_append]⟩

/-- R53: digits of which the first is not 0 spell their value. -/
theorem readNumeral_of_digit {k n : Nat} {t : Text} (hk : k < 10) (hk0 : k ≠ 0)
    (hval : digitsValue 0 (decimalChar k :: t) = some n) : readNumeral (decimalChar k :: t) = some (n : Int) := by
  rw [readNumeral, if_neg (fun h => decimalChar_ne_zero k hk hk0 h.1), hval]
  · rfl
  · exact decimalChar_ne_minus k hk

/-- R53: a minus sign before such digits spells the opposite of their value. -/
theorem readNumeral_minus_of_digit {k n : Nat} {t : Text} (hk : k < 10) (hk0 : k ≠ 0)
    (hval : digitsValue 0 (decimalChar k :: t) = some n) :
    readNumeral ('-' :: decimalChar k :: t) = some (-(n : Int)) := by
  rw [readNumeral, if_neg (decimalChar_ne_zero k hk hk0), hval]
  rfl

/-- Settles O33: 0 is `0`; any other integer is its sign before the digits of its magnitude, which read back as that. -/
theorem numeralSpellsTheInteger : Obligations.NumeralSpellsTheInteger := by
  intro d
  obtain rfl | hd := eq_or_ne d 0
  · decide
  · have hfuel : d.natAbs < d.natAbs + 1 := Nat.lt_succ_self _
    obtain ⟨k, t, hk, hk0, ht⟩ := exists_digits_eq_cons hfuel (Int.natAbs_ne_zero.mpr hd)
    have hval := digitsValue_digits hfuel
    rw [ht] at hval
    unfold numeral
    rw [ht]
    split
    · rw [readNumeral_minus_of_digit hk hk0 hval, Option.some.injEq]
      omega
    · rw [readNumeral_of_digit hk hk0 hval, Option.some.injEq]
      omega

end Sys2Proof.Machine
end
